-- ==== Sys2Proof/Word.lean ====
section
/-! DEFINITION. The word types of the block (00_scope.md R5, R6). -/

namespace Sys2Proof

/-- A 16-bit command word, bit 0 least significant (R6, R60). -/
abbrev Word := BitVec 16

/-- An 8-bit operand, result or accumulator value (R5, R44). -/
abbrev Byte := BitVec 8

/-- One bit per key: bit 0 is key 0 "mode", bit 1 is key 1 "select" (R5, R6). -/
abbrev Lanes := BitVec 2

/-- A 2-bit binary encoder phase (R101). -/
abbrev Phase := BitVec 2

/-- A 4-bit pin sample `{b, a, kn1, kn0}` (R62). -/
abbrev Sample := BitVec 4

end Sys2Proof
end

