-- ==== Sys2Proof/Config.lean ====
section
/-! DEFINITION. The one implementation parameter of 00_scope.md R5 that a type or a rule's own literal does not fix.
N_KEYS is the width of `Lanes`; DEBOUNCE_N = 4 is what the 2-bit counters give (R92). -/

namespace Sys2Proof

/-- TICK_PERIOD in microseconds (R5, R170, R188): a parameter, "about 1 ms", which no rule reads.
It has no body, so no proof can rest on a value of it (assumption 11). -/
opaque Config.tickPeriodMicroseconds : Nat

end Sys2Proof
end

