-- ==== Sys2Proof/Syntax.lean ====
section
/-! DEFINITION. The operations of the block: one constructor per row of spec/opcode_table.json (30_encoding.md R61). -/

namespace Sys2Proof

/-- A legal command (R61). Operands have exactly the width of their encoding field (R62, R63), so an
operand out of range cannot be written here; the source form that can is checked in WellFormed. -/
inductive Instr where
  /-- TICK: one periodic sample of the four input lines (R80). -/
  | tick (pins : Sample)
  /-- GETKP: read and clear the selected press-event flags (R120). -/
  | getkp (mask : Byte)
  /-- RD1: read the accumulator and zero it (R121). -/
  | rd1
  /-- RD2: read in units of 2 raw counts, keeping the low bit (R122). -/
  | rd2
  /-- RD4: read in units of 4 raw counts, keeping the low 2 bits (R123). -/
  | rd4
  /-- WAKE: the pin-change interrupt (R141). -/
  | wake
  /-- RESET: initialise the engine (R140). -/
  | reset (pins : Sample)
  deriving DecidableEq, Repr

end Sys2Proof
end

