-- ==== Sys2Proof/WellFormed.lean ====
section
/-! DEFINITION. Commands as they are written in source, with their operand checks (30_encoding.md R64, R69):
an operand out of range, an operand given to an operation without one and a missing operand are refused. -/

namespace Sys2Proof

/-- The mnemonics of R61. -/
inductive OpName where
  | tick | getkp | rd1 | rd2 | rd4 | wake | reset
  deriving DecidableEq, Repr

/-- A command as source gives it: a mnemonic and, where one is written, its number after `#` (R69). -/
structure SourceCommand where
  op      : OpName
  operand : Option Nat
  deriving DecidableEq, Repr

/-- How many values an operation's operand has: 16 for a pin sample, 256 for a mask; none where the
operation takes no operand (R62, R63, R64, R69). -/
def OpName.operandCount : OpName → Option Nat
  | .tick  => some 16
  | .getkp => some 256
  | .reset => some 16
  | .rd1 | .rd2 | .rd4 | .wake => none

/-- The source checks of R69. -/
def SourceCommand.wellFormed (c : SourceCommand) : Bool :=
  match c.op.operandCount, c.operand with
  | some n, some v => decide (v < n)
  | none, none     => true
  | some _, none   => false
  | none, some _   => false

/-- The source form of an instruction. -/
def Instr.source : Instr → SourceCommand
  | .tick pins  => ⟨.tick, some pins.toNat⟩
  | .getkp mask => ⟨.getkp, some mask.toNat⟩
  | .rd1        => ⟨.rd1, none⟩
  | .rd2        => ⟨.rd2, none⟩
  | .rd4        => ⟨.rd4, none⟩
  | .wake       => ⟨.wake, none⟩
  | .reset pins => ⟨.reset, some pins.toNat⟩

/-- An instruction is well formed when its source form passes the checks of R69. -/
abbrev Instr.WellFormed (i : Instr) : Prop := i.source.wellFormed = true

end Sys2Proof
end

