-- ==== Sys2Proof/Decode.lean ====
section
/-! DEFINITION. Decoding and encoding of command words (30_encoding.md R60 to R69, 20_memory.md R42). -/

namespace Sys2Proof

/-- Why a word is ILLEGAL (R65, R66). -/
inductive Illegal where
  /-- `rsv` (bits 11:8) is not 0b0000. -/
  | reservedField
  /-- `op` is 0x0 or 0x6 to 0xD. -/
  | unassignedOp
  /-- A reserved bit of `imm8` is 1: bits 7:4 of TICK and RESET, any bit of RD1, RD2, RD4 and WAKE. -/
  | reservedOperand
  deriving DecidableEq, Repr

/-- Why a byte string yields no command. -/
inductive Reject where
  /-- Fewer than the two bytes of a command: the block accepts a command only whole (R42, R43). -/
  | truncated
  /-- The word is ILLEGAL. -/
  | illegal (why : Illegal)
  deriving DecidableEq, Repr

/-- `op`, bits 15:12 (R60). -/
def opField (w : Word) : BitVec 4 := w.extractLsb' 12 4

/-- `rsv`, bits 11:8 (R60). -/
def rsvField (w : Word) : BitVec 4 := w.extractLsb' 8 4

/-- `imm8`, bits 7:0 (R60). -/
def immField (w : Word) : Byte := w.extractLsb' 0 8

/-- The pin sample of an operand byte, legal when `imm8[7:4]` is 0 (R62, R65). -/
def sampleOperand (imm : Byte) : Except Illegal Sample :=
  if imm.extractLsb' 4 4 = 0#4 then .ok (imm.extractLsb' 0 4) else .error .reservedOperand

/-- The operand byte of an operation without an operand, legal when 0x00 (R64). -/
def noOperand (imm : Byte) : Except Illegal Unit :=
  if imm = 0#8 then .ok () else .error .reservedOperand

/-- The decoder of R66: total on every word, every word outside the 292 legal ones rejected by name. -/
def decode (w : Word) : Except Illegal Instr :=
  if rsvField w = 0#4 then
    match (opField w).toNat with
    | 0x1 => (sampleOperand (immField w)).map .tick
    | 0x2 => .ok (.getkp (immField w))
    | 0x3 => (noOperand (immField w)).map fun _ => .rd1
    | 0x4 => (noOperand (immField w)).map fun _ => .rd2
    | 0x5 => (noOperand (immField w)).map fun _ => .rd4
    | 0xE => (noOperand (immField w)).map fun _ => .wake
    | 0xF => (sampleOperand (immField w)).map .reset
    | _   => .error .unassignedOp
  else .error .reservedField

/-- A word of two bytes, the low byte first (R42, assumption 8). -/
def wordOfBytes (lo hi : Byte) : Word := hi ++ lo

/-- One command off the front of a byte string: always two bytes (R68). -/
def decodeBytes : List Byte → Except Reject (Instr × List Byte)
  | lo :: hi :: rest =>
    match decode (wordOfBytes lo hi) with
    | .ok i    => .ok (i, rest)
    | .error e => .error (.illegal e)
  | _ => .error .truncated

/-- The word with the given `op` and `imm8`, and `rsv` zero (R60). -/
def packWord (op : BitVec 4) (imm : Byte) : Word := op ++ 0#4 ++ imm

/-- The encoder, from the operation map of R61 and the operand fields of R62 to R64. -/
def encode : Instr → Word
  | .tick pins  => packWord 0x1#4 (0#4 ++ pins)
  | .getkp mask => packWord 0x2#4 mask
  | .rd1        => packWord 0x3#4 0#8
  | .rd2        => packWord 0x4#4 0#8
  | .rd4        => packWord 0x5#4 0#8
  | .wake       => packWord 0xE#4 0#8
  | .reset pins => packWord 0xF#4 (0#4 ++ pins)

/-- A command word sent as bytes, the low byte first (R42). -/
def encodeBytes (i : Instr) : List Byte :=
  [(encode i).extractLsb' 0 8, (encode i).extractLsb' 8 8]

/-- `nbits` bits of `w`, at least one whole command, as bytes in the order the words are sent. -/
def tableBytes (nbits w : Nat) : List Byte :=
  (List.range (max 2 (nbits / 8))).map fun k => BitVec.ofNat 8 (w % 2 ^ nbits / 256 ^ k)

/-- The instruction the decoder reads from the bits of a row of spec/opcode_table.json. -/
def decodeTableWord (nbits w : Nat) : Option Instr :=
  match decodeBytes (tableBytes nbits w) with
  | .ok (i, []) => some i
  | _           => none

/-- The match and mask pair of an instruction's row (R67). -/
def tableRow : Instr → Word × Word
  | .tick _  => (0x1000#16, 0xFFF0#16)
  | .getkp _ => (0x2000#16, 0xFF00#16)
  | .rd1     => (0x3000#16, 0xFFFF#16)
  | .rd2     => (0x4000#16, 0xFFFF#16)
  | .rd4     => (0x5000#16, 0xFFFF#16)
  | .wake    => (0xE000#16, 0xFFFF#16)
  | .reset _ => (0xF000#16, 0xFFF0#16)

/-- The legal words as R67 lists them, row by row. -/
def legalWords : List Word :=
  (List.range 16).map (fun p => BitVec.ofNat 16 (0x1000 + p)) ++
  (List.range 256).map (fun m => BitVec.ofNat 16 (0x2000 + m)) ++
  [0x3000#16, 0x4000#16, 0x5000#16, 0xE000#16] ++
  (List.range 16).map (fun p => BitVec.ofNat 16 (0xF000 + p))

/-- The instruction of a source command that passes the checks of R69; none where it is an assembly error. -/
def SourceCommand.instr (c : SourceCommand) : Option Instr :=
  if c.wellFormed then
    match c.op, c.operand with
    | .tick, some v  => some (.tick (BitVec.ofNat 4 v))
    | .getkp, some v => some (.getkp (BitVec.ofNat 8 v))
    | .reset, some v => some (.reset (BitVec.ofNat 4 v))
    | .rd1, _        => some .rd1
    | .rd2, _        => some .rd2
    | .rd4, _        => some .rd4
    | .wake, _       => some .wake
    | .tick, none | .getkp, none | .reset, none => none
  else none

/-- The word of a source command: none, "no word is produced", where it is an assembly error (R69). -/
def SourceCommand.assemble (c : SourceCommand) : Option Word := c.instr.map encode

end Sys2Proof
end

