-- ==== Sys2Proof/Machine/State.lean ====
section
/-! DEFINITION. The state of the block (10_state.md R20 to R36), the agents (60_exceptions.md R160), the fault and
refusal reasons (R163), and the launch states (R36, R180). -/

namespace Sys2Proof.Machine

/-- The three agents that issue operations (R160). Each kind has exactly one, so a name is enough. -/
inductive Agent where
  /-- The periodic timer interrupt. -/
  | timer
  /-- The main loop. -/
  | consumer
  /-- Power-up and the pin-change interrupt. -/
  | platform
  deriving DecidableEq, Repr

/-- A command word with the agent that issues it (R29, R30). -/
structure Request where
  agent : Agent
  word  : Word
  deriving DecidableEq, Repr

/-- The faults of R163. -/
inductive Fault where
  /-- ILLEGAL_COMMAND, code 1, with the command word it records. Raised by `step` for a word that decodes
  as ILLEGAL, from any agent, at any time. It is TAKEN, not a stop: FAULT becomes 1, the reply records the
  fault and the machine goes on (R142), so `Outcome.fault` never occurs (assumption 5; safe). -/
  | illegalCommand (cmd : Word)
  deriving DecidableEq, Repr

/-- Why a step is refused. Both of the spec's refusals mean that the model has no step (R163, R180). -/
inductive Refusal where
  /-- An instruction with no meaning yet. Raised by no arm of `exec` (safe). -/
  | notModelled (mnemonic : String)
  /-- NOT_INITIALISED: a legal operation other than RESET while INIT = 0, with the command word. Raised by
  the meanings of TICK, GETKP, RD1, RD2, RD4 and WAKE (safe; assumption 6). -/
  | notInitialised (cmd : Word)
  /-- WRONG_AGENT: a legal operation issued by an agent that does not own it, with the command word and
  the agent. Raised by every meaning (safe; assumption 6). -/
  | wrongAgent (cmd : Word) (agent : Agent)
  deriving DecidableEq, Repr

/-- What the last operation gave back (R29, R142, R163): a return, not a register of the block. -/
inductive Reply where
  /-- TICK, RESET and WAKE return nothing. -/
  | nothing
  /-- The result byte, and the agent that issued the operation (R9, R29). -/
  | result (agent : Agent) (value : Byte)
  /-- No result, and the fault with its recorded value (R142, R163). -/
  | fault (cause : Fault)
  deriving DecidableEq, Repr

/-- The registers of R20, and three fields of the model's own that the spec takes as inputs and outputs of a
step rather than as registers (R29, R31, R34; assumptions 2 and 4). -/
structure State where
  /-- KEY_STATE: debounced level per key, 1 = pressed (R21). -/
  keyState : Lanes
  /-- KEY_PRESS: sticky press-event flag per key (R22). -/
  keyPress : Lanes
  /-- CT0: debounce counter, low bit per key (R23). -/
  ct0 : Lanes
  /-- CT1: debounce counter, high bit per key (R23). -/
  ct1 : Lanes
  /-- ENC_LAST: binary phase of the last accepted transition (R24). -/
  encLast : Phase
  /-- ENC_DELTA: signed raw-count accumulator (R25). -/
  encDelta : Byte
  /-- FAULT: an illegal command was seen (R26). -/
  fault : Bool
  /-- INIT: RESET has run (R27). -/
  init : Bool
  /-- The model's own: the commands not yet taken, in the total order of R48, the next one first. -/
  pending : List Request
  /-- The model's own: the agent that issued the operation being taken, or the last one taken. -/
  issuer : Agent
  /-- The model's own: what the last operation returned. No operation reads it. -/
  reply : Reply
  deriving DecidableEq, Repr

/-- The block at power-up (R36): INIT and FAULT are 0, and every other register is unspecified, so each is an
argument here and a claim about power-up holds for every value of it (assumption 3). -/
def State.powerUp (keyState keyPress ct0 ct1 : Lanes) (encLast : Phase) (encDelta : Byte) : State where
  keyState := keyState
  keyPress := keyPress
  ct0      := ct0
  ct1      := ct1
  encLast  := encLast
  encDelta := encDelta
  fault    := false
  init     := false
  pending  := []
  issuer   := .platform
  reply    := .nothing

/-- The block right after RESET (R36, R180): the state that `RESET #0x3`, keys released and both encoder
lines 0, leaves after power-up. ENC_LAST = 0 follows from that sample, which is the model's choice
(assumption 1, DESIGN CHOICE); every other register has the value of R36. -/
def State.reset : State where
  keyState := 0b00#2
  keyPress := 0b00#2
  ct0      := 0b11#2
  ct1      := 0b11#2
  encLast  := 0#2
  encDelta := 0x00#8
  fault    := false
  init     := true
  pending  := []
  issuer   := .platform
  reply    := .nothing

end Sys2Proof.Machine
end

