-- ==== Sys2Proof/Machine/Operands.lean ====
section
/-! DEFINITION. The operand forms: the lines of a pin sample, the key bits of a mask, the phase of the encoder
lines, and the signed reading and shift of the accumulator (00_scope.md R7; 30_encoding.md R62, R63;
41_tick_quadrature.md R101). -/

namespace Sys2Proof.Machine

/-- KEY_N[1:0] of a pin sample: electrical levels, 0 = pressed (R62). -/
def keyLines (pins : Sample) : Lanes := pins.extractLsb' 0 2

/-- ENC_A of a pin sample (R62). -/
def lineA (pins : Sample) : BitVec 1 := pins.extractLsb' 2 1

/-- ENC_B of a pin sample (R62). -/
def lineB (pins : Sample) : BitVec 1 := pins.extractLsb' 3 1

/-- The key bits of a mask: bits 7:2 select no key (R63). -/
def maskLanes (mask : Byte) : Lanes := mask.extractLsb' 0 2

/-- The raw key levels: the inverted lines, 1 = pressed (R81). -/
def rawLevels (pins : Sample) : Lanes := ~~~ keyLines pins

/-- Gray code to binary phase: `{A, A XOR B}`, the lines as sampled (R101). -/
def phaseOfLines (a b : BitVec 1) : Phase := a ++ (a ^^^ b)

/-- The binary phase of a pin sample. -/
def samplePhase (pins : Sample) : Phase := phaseOfLines (lineA pins) (lineB pins)

/-- `sint8`: an 8-bit value as a two's-complement number (R7). -/
def sint8 (v : Byte) : Int := v.toInt

/-- `asr`: the arithmetic right shift of R7. -/
def asr (v : Byte) (shift : Nat) : Byte := v.sshiftRight shift

/-- The low `shift` bits of the accumulator: the remainder a read leaves (R121 to R123, R125). -/
def lowBits (v : Byte) (shift : Nat) : Byte := v &&& BitVec.ofNat 8 (2 ^ shift - 1)

end Sys2Proof.Machine
end

