-- ==== Sys2Proof/Machine/Flags.lean ====
section
/-! DEFINITION. The status flags: KEY_PRESS is the block's only flag register, and there are no condition codes
(10_state.md R22). -/

namespace Sys2Proof.Machine

/-- TICK's flag rule: a rollover into the pressed level sets that key's flag, and none is cleared (R87). -/
def setPressFlags (keyPress keyState' roll : Lanes) : Lanes := keyPress ||| (keyState' &&& roll)

/-- The flags a mask selects (R120). -/
def selectedFlags (keyPress : Lanes) (mask : Byte) : Lanes := keyPress &&& maskLanes mask

/-- GETKP's flag rule: the selected flags are cleared and the others keep their value (R120). -/
def clearPressFlags (keyPress : Lanes) (mask : Byte) : Lanes := keyPress &&& ~~~ maskLanes mask

end Sys2Proof.Machine
end

