-- ==== Sys2Proof/Machine/Ops.lean ====
section
/-! DEFINITION. The operations every meaning shares: who may issue a command and when (60_exceptions.md R161, R163;
70_reset_and_hazards.md R180), returning a result (10_state.md R29), taking a fault (43_reset_wake.md R142) and
accepting the next request (20_memory.md R48). The block has no memory (R40) and no trap return (R168). -/

namespace Sys2Proof.Machine

/-- The agent an operation belongs to (R61, R161). -/
def owner : Instr → Agent
  | .tick _  => .timer
  | .getkp _ => .consumer
  | .rd1     => .consumer
  | .rd2     => .consumer
  | .rd4     => .consumer
  | .wake    => .platform
  | .reset _ => .platform

/-- Every operation but RESET is refused while INIT = 0 (R27, R180). -/
def needsInit : Instr → Bool
  | .reset _ => false
  | .tick _ | .getkp _ | .rd1 | .rd2 | .rd4 | .wake => true

/-- The admission of a legal operation (R163): WRONG_AGENT is reported before NOT_INITIALISED; an admitted
operation makes all its writes together (R45), giving `t`. -/
def perform (i : Instr) (s t : State) : Host.Outcome State Fault Refusal :=
  if s.issuer = owner i then
    if s.init || !needsInit i then .next t else .refused (.notInitialised (encode i))
  else .refused (.wrongAgent (encode i) s.issuer)

/-- The operation returns nothing (R29). -/
def returnNothing (s : State) : State := { s with reply := .nothing }

/-- `result <- v`: the value goes to the agent that issued the operation (R9, R29). -/
def returnByte (v : Byte) (s : State) : State := { s with reply := .result s.issuer v }

/-- The code of a fault (R163). -/
def faultCode : Fault → Nat
  | .illegalCommand _ => 1

/-- Taking a fault (R142, R163): FAULT becomes 1, the cause and its value are recorded, no result is returned and
no other register changes. There is no vector, no saved state and no return (R167, R168). -/
def takeFault (cause : Fault) (s : State) : State := { s with fault := true, reply := .fault cause }

/-- Accept a request (R48, R51): it leaves the pending sequence and its agent becomes the issuer. -/
def acceptRequest (r : Request) (rest : List Request) (s : State) : State :=
  { s with pending := rest, issuer := r.agent }

/-- With no command issued, no operation takes effect and every register keeps its value (assumption 7). -/
def idle (s : State) : State := s

/-- A request in which an instruction is issued by the agent that owns it (R161). -/
def ownRequest (i : Instr) : Request := ⟨owner i, encode i⟩

/-- The agent to present a word from: the owner of a legal word; any agent may issue an illegal one (R163). -/
def presentingAgent (w : Word) : Agent :=
  match decode w with
  | .ok i    => owner i
  | .error _ => .platform

end Sys2Proof.Machine
end

