-- ==== Sys2Proof/Machine/Reads.lean ====
section
/-! DEFINITION. The meanings of the consumer reads GETKP, RD1, RD2 and RD4 (42_consumer_reads.md R120 to R123). -/

namespace Sys2Proof.Machine

/-- The effect of GETKP (R120): the selected flags, zero-extended, are returned and cleared. -/
def getkpEffect (mask : Byte) (s : State) : State :=
  returnByte ((selectedFlags s.keyPress mask).setWidth 8)
    { s with keyPress := clearPressFlags s.keyPress mask }

/-- The effect of a delta read with the given shift (R121 to R123): the accumulator is returned in units of
2^shift raw counts and its low bits stay as the remainder. -/
def deltaRead (shift : Nat) (s : State) : State :=
  returnByte (asr s.encDelta shift) { s with encDelta := lowBits s.encDelta shift }

/-- GETKP (R120), issued by the CONSUMER. -/
def execGetkp (mask : Byte) (s : State) : Host.Outcome State Fault Refusal :=
  perform (.getkp mask) s (getkpEffect mask s)

/-- RD1 (R121), issued by the CONSUMER. -/
def execRd1 (s : State) : Host.Outcome State Fault Refusal := perform .rd1 s (deltaRead 0 s)

/-- RD2 (R122), issued by the CONSUMER. -/
def execRd2 (s : State) : Host.Outcome State Fault Refusal := perform .rd2 s (deltaRead 1 s)

/-- RD4 (R123), issued by the CONSUMER. -/
def execRd4 (s : State) : Host.Outcome State Fault Refusal := perform .rd4 s (deltaRead 2 s)

end Sys2Proof.Machine
end

