-- ==== Sys2Proof/Machine/System.lean ====
section
/-! DEFINITION. The meanings of the platform operations RESET and WAKE (43_reset_wake.md R140, R141). -/

namespace Sys2Proof.Machine

/-- The effect of RESET (R36, R140): ENC_LAST takes the phase of the sampled lines, the key lines are ignored and
FAULT is not written. -/
def resetEffect (pins : Sample) (s : State) : State :=
  returnNothing
    { s with
      keyState := 0b00#2, keyPress := 0b00#2, ct0 := 0b11#2, ct1 := 0b11#2,
      encLast := samplePhase pins, encDelta := 0x00#8, init := true }

/-- RESET (R140), issued by the PLATFORM. -/
def execReset (pins : Sample) (s : State) : Host.Outcome State Fault Refusal :=
  perform (.reset pins) s (resetEffect pins s)

/-- WAKE (R141), issued by the PLATFORM: no register changes and nothing is returned. -/
def execWake (s : State) : Host.Outcome State Fault Refusal := perform .wake s (returnNothing s)

end Sys2Proof.Machine
end

