-- ==== Sys2Proof/Machine/Debounce.lean ====
section
/-! DEFINITION. The debounce half of TICK (40_tick_debounce.md): the bitwise step on both lanes, and the per-key
form the spec gives beside it. -/

namespace Sys2Proof.Machine

/-- The keys whose raw level differs from the accepted state (R82). -/
def changedKeys (raw keyState : Lanes) : Lanes := raw ^^^ keyState

/-- `ct0' = NOT (CT0 AND changed)` (R83). -/
def nextCt0 (ct0 changed : Lanes) : Lanes := ~~~ (ct0 &&& changed)

/-- `ct1' = ct0' XOR (CT1 AND changed)`: the corrected formula (R84, 90_conflicts.md C1). -/
def nextCt1 (ct0' ct1 changed : Lanes) : Lanes := ct0' ^^^ (ct1 &&& changed)

/-- `roll = changed AND ct0' AND ct1'` (R85). -/
def rollover (changed ct0' ct1' : Lanes) : Lanes := changed &&& ct0' &&& ct1'

/-- `KEY_STATE' = KEY_STATE XOR roll` (R86). -/
def flipState (keyState roll : Lanes) : Lanes := keyState ^^^ roll

/-- The debounce half of TICK, every value computed from the pre-tick registers (R80, R88). -/
def debounce (pins : Sample) (s : State) : State :=
  let changed := changedKeys (rawLevels pins) s.keyState
  let ct0' := nextCt0 s.ct0 changed
  let ct1' := nextCt1 ct0' s.ct1 changed
  let roll := rollover changed ct0' ct1'
  let keyState' := flipState s.keyState roll
  { s with
    ct0 := ct0', ct1 := ct1', keyState := keyState',
    keyPress := setPressFlags s.keyPress keyState' roll }

/-- The pending count `n_k = 3 - (2*CT1[k] + CT0[k])` of key k (R23). -/
def pendingCount (s : State) (k : Nat) : Nat :=
  3 - (2 * (s.ct1.getLsbD k).toNat + (s.ct0.getLsbD k).toNat)

/-- One key's step as R90 writes it: from the pending count, the state, the flag and the raw level to the next
count, state and flag. -/
def keyStep (n : Nat) (state press raw : Bool) : Nat × Bool × Bool :=
  if raw = state then (0, state, press)
  else if n < 3 then (n + 1, state, press)
  else (0, raw, press || raw)

end Sys2Proof.Machine
end

