-- ==== Sys2Proof/Machine/Quadrature.lean ====
section
/-! DEFINITION. The quadrature half of TICK (41_tick_quadrature.md). -/

namespace Sys2Proof.Machine

/-- `diff = lastPhase - newPhase` on 8 bits (R102). -/
def phaseDiff (last new : Phase) : Byte := last.setWidth 8 - new.setWidth 8

/-- One raw count: +1 when bit 1 of the difference is 1, else -1 (R103, decision D7). -/
def countStep (diff : Byte) : Byte := if diff.getLsbD 1 then 0x01#8 else 0xFF#8

/-- QuadStep (R100): an odd difference is accepted; an even one changes nothing (R103, R104). The sum wraps
modulo 2^8 (R105). -/
def quadStep (last : Phase) (delta : Byte) (a b : BitVec 1) : Phase × Byte :=
  let new := phaseOfLines a b
  let diff := phaseDiff last new
  if diff.getLsbD 0 then (new, delta + countStep diff) else (last, delta)

/-- The quadrature half of TICK: it writes ENC_LAST and ENC_DELTA only (R100). -/
def quadrature (pins : Sample) (s : State) : State :=
  let r := quadStep s.encLast s.encDelta (lineA pins) (lineB pins)
  { s with encLast := r.1, encDelta := r.2 }

/-- The raw count a tick at phase `new` adds, as an integer (R106): +1 one phase up, -1 one phase down, 0 for no
motion and for a skipped state. -/
def rawCount (last new : Phase) : Int :=
  if new = last + 1 then 1 else if new = last - 1 then -1 else 0

end Sys2Proof.Machine
end

