-- ==== Sys2Proof/Machine/Tick.lean ====
section
/-! DEFINITION. The meaning of TICK (40_tick_debounce.md R80). -/

namespace Sys2Proof.Machine

/-- The effect of TICK: its two halves read and write disjoint registers, and it returns nothing (R80). -/
def tickEffect (pins : Sample) (s : State) : State :=
  returnNothing (quadrature pins (debounce pins s))

/-- TICK (R80), issued by the TIMER. -/
def execTick (pins : Sample) (s : State) : Host.Outcome State Fault Refusal :=
  perform (.tick pins) s (tickEffect pins s)

end Sys2Proof.Machine
end

