-- ==== Sys2Proof/Machine/Dispatch.lean ====
section
/-! DEFINITION. The meaning of every instruction: one arm per constructor. -/

namespace Sys2Proof.Machine

def exec (i : Instr) (s : State) : Host.Outcome State Fault Refusal :=
  match i with
  | .tick pins => Sys2Proof.Machine.execTick pins s
  | .getkp mask => Sys2Proof.Machine.execGetkp mask s
  | .rd1 => Sys2Proof.Machine.execRd1 s
  | .rd2 => Sys2Proof.Machine.execRd2 s
  | .rd4 => Sys2Proof.Machine.execRd4 s
  | .wake => Sys2Proof.Machine.execWake s
  | .reset pins => Sys2Proof.Machine.execReset pins s

end Sys2Proof.Machine
end

