-- ==== Sys2Proof/Machine/Step.lean ====
section
/-! DEFINITION. One step: the next request of the total order, whole (20_memory.md R45, R48). -/

namespace Sys2Proof.Machine

/-- One step. Decoding comes first, so an illegal word faults whoever issues it and whatever INIT is (R142, R163);
a legal one runs as its instruction. With nothing pending the block idles (assumption 7). -/
def step (s : State) : Host.Outcome State Fault Refusal :=
  match s.pending with
  | [] => .next (idle s)
  | r :: rest =>
    match decode r.word with
    | .ok i    => exec i (acceptRequest r rest s)
    | .error _ => .next (takeFault (.illegalCommand r.word) (acceptRequest r rest s))

/-- The state in which the very next step takes the given word: it is put first in the pending sequence, issued by
the agent that owns it (assumption 9). -/
def State.withFetchWord (s : State) (nbits w : Nat) : State :=
  let word : Word := BitVec.ofNat 16 (w % 2 ^ nbits)
  { s with pending := ⟨presentingAgent word, word⟩ :: s.pending }

end Sys2Proof.Machine
end

