-- ==== Sys2Proof/Machine/Assembler.lean ====
section
/-! DEFINITION. The assembler: source statements with the pseudo-instructions of R70, and the text of a source line
(30_encoding.md R69, R70). Text is a list of characters. What R69 leaves open about blanks and letter case is
assumption 10. -/

namespace Sys2Proof.Machine

/-- A key level of a pseudo-instruction: `P` pressed, `R` released (R70). -/
inductive KeyLevel where
  | P | R
  deriving DecidableEq, Repr

/-- A source statement: a command, a pseudo-instruction (R70), or a raw word as program P5 writes one. -/
inductive Statement where
  | command (c : SourceCommand)
  | ticks (k0 k1 : KeyLevel) (a b : Nat)
  | idle (a b : Nat)
  | resets (a b : Nat)
  | getmode
  | getselect
  | getall
  | rawWord (w : Nat)
  deriving DecidableEq, Repr

/-- Why a line is an assembly error (R69). -/
inductive AsmError where
  /-- The line has none of the forms of R69 and R70. -/
  | badSyntax
  /-- An operand out of range, an operand given to an operation without one, or a missing operand. -/
  | badOperand
  deriving DecidableEq, Repr

/-- The line of a released key is high: `(k == R)` of R70. -/
def releasedBit : KeyLevel → Nat
  | .P => 0
  | .R => 1

/-- The pin sample `{b, a, (k1 == R), (k0 == R)}` of R70. -/
def sampleNumber (k0 k1 : KeyLevel) (a b : Nat) : Nat :=
  8 * b + 4 * a + 2 * releasedBit k1 + releasedBit k0

/-- The command a statement stands for (R70); none where a line level is neither 0 nor 1, and for a raw word. -/
def expand : Statement → Option SourceCommand
  | .command c => some c
  | .ticks k0 k1 a b => if a < 2 ∧ b < 2 then some ⟨.tick, some (sampleNumber k0 k1 a b)⟩ else none
  | .idle a b => if a < 2 ∧ b < 2 then some ⟨.tick, some (sampleNumber .R .R a b)⟩ else none
  | .resets a b => if a < 2 ∧ b < 2 then some ⟨.reset, some (sampleNumber .R .R a b)⟩ else none
  | .getmode => some ⟨.getkp, some 0x01⟩
  | .getselect => some ⟨.getkp, some 0x02⟩
  | .getall => some ⟨.getkp, some 0xFF⟩
  | .rawWord _ => none

/-- The word of a statement: none where it is an assembly error (R69). -/
def assembleStatement : Statement → Option Word
  | .rawWord w => if w < 2 ^ 16 then some (BitVec.ofNat 16 w) else none
  | st => (expand st).bind SourceCommand.assemble

/-- A token of a source line. -/
inductive Token where
  | word (cs : List Char)
  | comma
  deriving DecidableEq, Repr

/-- End the word being read, if there is one. -/
def flush (acc : List Char) (ts : List Token) : List Token :=
  if acc = [] then ts else .word acc.reverse :: ts

/-- The tokens of a line: words and commas; blanks separate, and `;` starts a comment (R69). -/
def tokens (acc : List Char) : List Char → List Token
  | [] => flush acc []
  | c :: cs =>
    if c = ';' then flush acc []
    else if c = ' ' ∨ c = '\t' then flush acc (tokens [] cs)
    else if c = ',' then flush acc (.comma :: tokens [] cs)
    else tokens (c :: acc) cs

/-- The value of a digit in a base up to 16. -/
def digit (base : Nat) (c : Char) : Option Nat :=
  let n := c.toNat
  let v := if 48 ≤ n ∧ n ≤ 57 then n - 48
    else if 65 ≤ n ∧ n ≤ 70 then n - 55
    else if 97 ≤ n ∧ n ≤ 102 then n - 87
    else 16
  if v < base then some v else none

/-- The digits of a number after those already read. -/
def digits (base acc : Nat) : List Char → Option Nat
  | [] => some acc
  | c :: cs => (digit base c).bind fun v => digits base (base * acc + v) cs

/-- At least one digit. -/
def digits1 (base : Nat) (cs : List Char) : Option Nat :=
  if cs = [] then none else digits base 0 cs

/-- A number in decimal, binary (`0b`) or hexadecimal (`0x`) (R69). -/
def number : List Char → Option Nat
  | '0' :: 'b' :: cs => digits1 2 cs
  | '0' :: 'x' :: cs => digits1 16 cs
  | cs => digits1 10 cs

/-- A key level by its letter. -/
def keyLevel : List Char → Option KeyLevel
  | ['P'] => some .P
  | ['R'] => some .R
  | _ => none

/-- The operation of a mnemonic (R61). -/
def opName : List Char → Option OpName
  | ['T', 'I', 'C', 'K'] => some .tick
  | ['G', 'E', 'T', 'K', 'P'] => some .getkp
  | ['R', 'D', '1'] => some .rd1
  | ['R', 'D', '2'] => some .rd2
  | ['R', 'D', '4'] => some .rd4
  | ['W', 'A', 'K', 'E'] => some .wake
  | ['R', 'E', 'S', 'E', 'T'] => some .reset
  | _ => none

/-- The statement of a line's tokens (R69, R70). -/
def parseTokens : List Token → Option Statement
  | [.word ['G', 'E', 'T', 'M', 'O', 'D', 'E']] => some .getmode
  | [.word ['G', 'E', 'T', 'S', 'E', 'L', 'E', 'C', 'T']] => some .getselect
  | [.word ['G', 'E', 'T', 'A', 'L', 'L']] => some .getall
  | [.word ['.', 'w', 'o', 'r', 'd'], .word cs] => (number cs).map .rawWord
  | [.word ['T', 'I', 'C', 'K', 'S'], .word k0, .comma, .word k1, .comma, .word a, .comma, .word b] =>
    (keyLevel k0).bind fun k0 => (keyLevel k1).bind fun k1 =>
    (number a).bind fun a => (number b).map fun b => .ticks k0 k1 a b
  | [.word ['I', 'D', 'L', 'E'], .word a, .comma, .word b] =>
    (number a).bind fun a => (number b).map fun b => .idle a b
  | [.word ['R', 'E', 'S', 'E', 'T', 'S'], .word a, .comma, .word b] =>
    (number a).bind fun a => (number b).map fun b => .resets a b
  | [.word op, .word ('#' :: cs)] =>
    (opName op).bind fun op => (number cs).map fun v => .command ⟨op, some v⟩
  | [.word op] => (opName op).map fun op => .command ⟨op, none⟩
  | _ => none

/-- A source line: no word for a line without a statement, one word for a statement, or an assembly error. -/
def assembleLine (line : List Char) : Except AsmError (Option Word) :=
  match tokens [] line with
  | [] => .ok none
  | ts =>
    match parseTokens ts with
    | none => .error .badSyntax
    | some st =>
      match assembleStatement st with
      | none => .error .badOperand
      | some w => .ok (some w)

end Sys2Proof.Machine
end

