-- ==== Sys2Proof/Machine/Runs.lean ====
section
/-! DEFINITION. Runs of commands and the accounts claims keep over them: the sequence of commands is an input of the
block (10_state.md R31, R34), and net counts are sums over a run (41_tick_quadrature.md R107, 42_consumer_reads.md
R126). -/

namespace Sys2Proof.Machine

/-- `n` steps, stopping at the first refusal: `Host.Core.run` of the machine (Laws/Step.lean, `run_eq_core_run`). -/
def run : Nat → State → Host.Outcome State Fault Refusal
  | 0, s => .next s
  | n + 1, s =>
    match step s with
    | .next t => run n t
    | .fault f => .fault f
    | .refused r => .refused r

/-- A request that is legal and issued by the agent that owns it (R161). -/
def wellIssued (r : Request) : Bool :=
  match decode r.word with
  | .ok i    => decide (r.agent = owner i)
  | .error _ => false

/-- The instruction a step would run, where the next request is legal. -/
def nextInstr (s : State) : Option Instr :=
  match s.pending with
  | []     => none
  | r :: _ =>
    match decode r.word with
    | .ok i    => some i
    | .error _ => none

/-- The state with the given commands as its whole pending sequence, each issued by its owner. -/
def load (is : List Instr) (s : State) : State := { s with pending := is.map ownRequest }

/-- Run a sequence of commands, each issued by its owner, from a state. -/
def runAll (is : List Instr) (s : State) : Host.Outcome State Fault Refusal :=
  run is.length (load is s)

/-- The raw count the next step adds to the accumulator, as an integer (R106, R107). -/
def stepCount (s : State) : Int :=
  match nextInstr s with
  | some (.tick pins) => rawCount s.encLast (samplePhase pins)
  | _ => 0

/-- The raw counts a step from `s` to `t` handed to the consumer: `2^shift * sint8(result)` (R126). -/
def stepRead (s t : State) : Int :=
  match nextInstr s, t.reply with
  | some .rd1, .result _ v => sint8 v
  | some .rd2, .result _ v => 2 * sint8 v
  | some .rd4, .result _ v => 4 * sint8 v
  | _, _ => 0

/-- D of R107 and R126: the net raw count of the first `n` steps, not reduced. -/
def netCount : Nat → State → Int
  | 0, _ => 0
  | n + 1, s =>
    match step s with
    | .next t => stepCount s + netCount n t
    | _ => 0

/-- The raw counts the first `n` steps handed to the consumer (R126). -/
def netRead : Nat → State → Int
  | 0, _ => 0
  | n + 1, s =>
    match step s with
    | .next t => stepRead s t + netRead n t
    | _ => 0

/-- No tick of the first `n` steps wraps the accumulator (R105, R126). -/
def noWrap : Nat → State → Bool
  | 0, _ => true
  | n + 1, s =>
    decide (-128 ≤ sint8 s.encDelta + stepCount s ∧ sint8 s.encDelta + stepCount s ≤ 127) &&
    match step s with
    | .next t => noWrap n t
    | _ => true

/-- No command of the first `n` steps is a RESET. -/
def noReset : Nat → State → Bool
  | 0, _ => true
  | n + 1, s =>
    (match nextInstr s with
     | some (.reset _) => false
     | _ => true) &&
    match step s with
    | .next t => noReset n t
    | _ => true

/-- Both encoder lines of a sample inverted (R109). -/
def invertLines (pins : Sample) : Sample := pins ^^^ 0b1100#4

/-- The registers of R20, without the model's own fields. -/
def registers (s : State) : Lanes × Lanes × Lanes × Lanes × Phase × Byte × Bool × Bool :=
  (s.keyState, s.keyPress, s.ct0, s.ct1, s.encLast, s.encDelta, s.fault, s.init)

/-- The next state of an outcome, where there is one. -/
def nextState? : Host.Outcome State Fault Refusal → Option State
  | .next s => some s
  | .fault _ => none
  | .refused _ => none

end Sys2Proof.Machine
end

