-- ==== Sys2Proof/Safety.lean ====
section
/-! DEFINITION. What counts as a good run: the premises on who drives the block and the final states the spec calls
good (10_state.md R26; 60_exceptions.md R161; 70_reset_and_hazards.md R180). -/

namespace Sys2Proof.Machine

/-- A state whose FAULT is 1 is never a good final state (R26). -/
def goodFinal (s : State) : Bool := !s.fault

/-- RESET has run, no illegal command has been seen, and every command to come is legal and issued by its owner
(R161, R180). -/
abbrev WellDriven (s : State) : Prop :=
  s.init = true ∧ s.fault = false ∧ s.pending.all wellIssued = true

/-- The launch premise of R180: at power-up, RESET is the first operation. -/
abbrev LaunchedByReset (pins : Sample) (rest : List Request) (s : State) : Prop :=
  s.init = false ∧ s.fault = false ∧ s.pending = ownRequest (.reset pins) :: rest ∧ rest.all wellIssued = true

end Sys2Proof.Machine
end

