-- ==== Sys2Proof/Certificates/Slice0/Obligations.lean ====
section
/-! DEFINITION. The statements about the block. Each docstring names the rules of spec/ it rests on and, where a
clause is the spec's own decision (D<n> of 92_eei_decisions.md) or the model's (an assumption), says so. A run of
commands issues each from the agent that owns it. -/

open Sys2Proof Sys2Proof.Machine

/-! ### Encoding -/

/-- R60, R66, R67 and the byte order of R42 (decisions D11, D13): every instruction, with every operand, is given back
by decoding its word, and by decoding its two bytes in front of any others. -/
def Obligations.EncodeThenDecodeGivesTheCommandBack : Prop :=
  ∀ i : Instr, decode (encode i) = .ok i ∧
    ∀ rest : List Byte, decodeBytes (encodeBytes i ++ rest) = .ok (i, rest)

/-- R66, R67, R69 (decision D11): each operation is decoded from exactly the words the spec writes for it. -/
def Obligations.DecodeMapIsExact : Prop :=
  ∀ w : Word,
    (∀ p : Sample, decode w = .ok (.tick p) ↔ w = 0x1000#16 ||| p.setWidth 16) ∧
    (∀ m : Byte, decode w = .ok (.getkp m) ↔ w = 0x2000#16 ||| m.setWidth 16) ∧
    (decode w = .ok .rd1 ↔ w = 0x3000#16) ∧
    (decode w = .ok .rd2 ↔ w = 0x4000#16) ∧
    (decode w = .ok .rd4 ↔ w = 0x5000#16) ∧
    (decode w = .ok .wake ↔ w = 0xE000#16) ∧
    (∀ p : Sample, decode w = .ok (.reset p) ↔ w = 0xF000#16 ||| p.setWidth 16)

/-- R64, R65, R66 (decisions D11, D12): which words are ILLEGAL, by cause: a reserved bit in `rsv`, an unassigned
operation, or a reserved bit in the operand byte. -/
def Obligations.IllegalWordsByCause : Prop :=
  ∀ w : Word,
    (decode w = .error .reservedField ↔ w.extractLsb' 8 4 ≠ 0#4) ∧
    (decode w = .error .unassignedOp ↔
      w.extractLsb' 8 4 = 0#4 ∧
      (w.extractLsb' 12 4 = 0x0#4 ∨ (0x6#4 ≤ w.extractLsb' 12 4 ∧ w.extractLsb' 12 4 ≤ 0xD#4))) ∧
    (decode w = .error .reservedOperand ↔
      w.extractLsb' 8 4 = 0#4 ∧
      (((w.extractLsb' 12 4 = 0x1#4 ∨ w.extractLsb' 12 4 = 0xF#4) ∧ w.extractLsb' 4 4 ≠ 0#4) ∨
       ((w.extractLsb' 12 4 = 0x3#4 ∨ w.extractLsb' 12 4 = 0x4#4 ∨ w.extractLsb' 12 4 = 0x5#4 ∨
         w.extractLsb' 12 4 = 0xE#4) ∧ w.extractLsb' 0 8 ≠ 0#8)))

/-- R65, R67 (decisions D11, D12): the legal words are the 292 listed ones, no word twice, and every other word is
ILLEGAL. -/
def Obligations.LegalWordsAreTheListed292 : Prop :=
  legalWords.length = 292 ∧ legalWords.Nodup ∧
  ∀ w : Word, (∃ i, decode w = .ok i) ↔ w ∈ legalWords

/-- Words written out from R67 and from 95_test_vectors.md L2.1 decode as those tables say. -/
def Obligations.WrittenOutWordsDecode : Prop :=
  decode 0b0001_0000_0000_1111#16 = .ok (.tick 0xF#4) ∧
  decode 0b0010_0000_1111_1111#16 = .ok (.getkp 0xFF#8) ∧
  decode 0b0011_0000_0000_0000#16 = .ok .rd1 ∧
  decode 0b0100_0000_0000_0000#16 = .ok .rd2 ∧
  decode 0b0101_0000_0000_0000#16 = .ok .rd4 ∧
  decode 0b1110_0000_0000_0000#16 = .ok .wake ∧
  decode 0b1111_0000_0000_1111#16 = .ok (.reset 0xF#4) ∧
  decode 0x4080#16 = .error .reservedOperand ∧
  decode 0x2100#16 = .error .reservedField ∧
  decode 0xD000#16 = .error .unassignedOp

/-- R69 (decision D11): the word of each source command; an operand out of range, an operand given to an operation
without one and a missing operand produce no word. -/
def Obligations.SourceOperandsOutOfRangeGiveNoWord : Prop :=
  (∀ n : Nat, (SourceCommand.mk .tick (some n)).assemble =
    if n < 16 then some (0x1000#16 ||| BitVec.ofNat 16 n) else none) ∧
  (∀ n : Nat, (SourceCommand.mk .getkp (some n)).assemble =
    if n < 256 then some (0x2000#16 ||| BitVec.ofNat 16 n) else none) ∧
  (∀ n : Nat, (SourceCommand.mk .reset (some n)).assemble =
    if n < 16 then some (0xF000#16 ||| BitVec.ofNat 16 n) else none) ∧
  (SourceCommand.mk .rd1 none).assemble = some 0x3000#16 ∧
  (SourceCommand.mk .rd2 none).assemble = some 0x4000#16 ∧
  (SourceCommand.mk .rd4 none).assemble = some 0x5000#16 ∧
  (SourceCommand.mk .wake none).assemble = some 0xE000#16 ∧
  (∀ n : Nat, ∀ op ∈ [OpName.rd1, .rd2, .rd4, .wake], (SourceCommand.mk op (some n)).assemble = none) ∧
  (∀ op ∈ [OpName.tick, .getkp, .reset], (SourceCommand.mk op none).assemble = none)

/-- R70 (decision D11): the pseudo-instructions and their expansions, for every key level and both line levels. -/
def Obligations.PseudoInstructionsExpandAsListed : Prop :=
  (∀ (k0 k1 : KeyLevel) (a b : Bool),
    assembleStatement (.ticks k0 k1 a.toNat b.toNat) =
      some (0x1000#16 ||| BitVec.ofNat 16
        (8 * b.toNat + 4 * a.toNat + 2 * (decide (k1 = .R)).toNat + (decide (k0 = .R)).toNat))) ∧
  (∀ a b : Bool,
    assembleStatement (.idle a.toNat b.toNat) = assembleStatement (.ticks .R .R a.toNat b.toNat) ∧
    assembleStatement (.resets a.toNat b.toNat) =
      some (0xF000#16 ||| BitVec.ofNat 16 (8 * b.toNat + 4 * a.toNat + 3))) ∧
  assembleStatement .getmode = some 0x2001#16 ∧
  assembleStatement .getselect = some 0x2002#16 ∧
  assembleStatement .getall = some 0x20FF#16

/-! ### Steps, admission and faults -/

/-- R45, R48, R51: when the next command's word decodes to an instruction, the step is that instruction, run with the
command taken off the sequence and its agent as the issuer (the model's own fields, assumptions 2 and 4). -/
def Obligations.StepRunsTheDecodedCommand : Prop :=
  ∀ (s : State) (r : Request) (rest : List Request) (i : Instr),
    s.pending = r :: rest → decode r.word = .ok i →
    step s = exec i { s with pending := rest, issuer := r.agent }

/-- Assumption 9 (the model's own): a word placed with `withFetchWord` is run by the very next step, issued by its
owner, and the commands already pending stay. -/
def Obligations.PlacedWordIsTheNextCommand : Prop :=
  ∀ (s : State) (i : Instr),
    step (s.withFetchWord 16 (encode i).toNat) = exec i { s with issuer := owner i }

/-- 43_reset_wake.md section 3 and the fault row of R163 (decision D12): an illegal word from any agent, before RESET
or after it, sets FAULT, changes no other register, returns no result and records the word; the machine goes on
(assumption 5). -/
def Obligations.IllegalWordSetsFaultOnly : Prop :=
  ∀ (s : State) (a : Agent) (w : Word) (rest : List Request) (e : Illegal),
    s.pending = ⟨a, w⟩ :: rest → decode w = .error e →
    step s = .next { s with
      pending := rest, issuer := a, fault := true, reply := .fault (.illegalCommand w) }

/-- Assumption 7 (the model's own): with no command issued nothing changes. -/
def Obligations.NoCommandNoChange : Prop :=
  ∀ s : State, s.pending = [] → step s = .next s

/-- 70_reset_and_hazards.md section 1 and the NOT_INITIALISED row of R163 (decision D18): until RESET, every operation
but RESET issued by its owner is refused, with the command word. -/
def Obligations.RefusedUntilReset : Prop :=
  ∀ s : State, s.init = false →
    (s.issuer = .timer → ∀ p, exec (.tick p) s = .refused (.notInitialised (0x1000#16 ||| p.setWidth 16))) ∧
    (s.issuer = .consumer →
      (∀ m, exec (.getkp m) s = .refused (.notInitialised (0x2000#16 ||| m.setWidth 16))) ∧
      exec .rd1 s = .refused (.notInitialised 0x3000#16) ∧
      exec .rd2 s = .refused (.notInitialised 0x4000#16) ∧
      exec .rd4 s = .refused (.notInitialised 0x5000#16)) ∧
    (s.issuer = .platform → exec .wake s = .refused (.notInitialised 0xE000#16))

/-- R161 and the WRONG_AGENT row of R163 (decision D23): an operation issued by an agent that does not own it is
refused with the word and the agent, whether or not RESET has run. -/
def Obligations.RefusedFromTheWrongAgent : Prop :=
  ∀ s : State,
    (s.issuer ≠ .timer →
      ∀ p, exec (.tick p) s = .refused (.wrongAgent (0x1000#16 ||| p.setWidth 16) s.issuer)) ∧
    (s.issuer ≠ .consumer →
      (∀ m, exec (.getkp m) s = .refused (.wrongAgent (0x2000#16 ||| m.setWidth 16) s.issuer)) ∧
      exec .rd1 s = .refused (.wrongAgent 0x3000#16 s.issuer) ∧
      exec .rd2 s = .refused (.wrongAgent 0x4000#16 s.issuer) ∧
      exec .rd4 s = .refused (.wrongAgent 0x5000#16 s.issuer)) ∧
    (s.issuer ≠ .platform →
      exec .wake s = .refused (.wrongAgent 0xE000#16 s.issuer) ∧
      ∀ p, exec (.reset p) s = .refused (.wrongAgent (0xF000#16 ||| p.setWidth 16) s.issuer))

/-- R161, R163, R180 (decisions D18, D23): an operation completes exactly when its owner issues it and, unless it is
RESET, RESET has run; none ends in a fault. -/
def Obligations.CompletesExactlyForItsOwnerAfterReset : Prop :=
  ∀ (i : Instr) (s : State),
    ((∃ t, exec i s = .next t) ↔
      s.issuer = (match i with
        | .tick _ => Agent.timer
        | .getkp _ | .rd1 | .rd2 | .rd4 => Agent.consumer
        | .wake | .reset _ => Agent.platform) ∧
      (s.init = true ∨ ∃ p, i = .reset p)) ∧
    ∀ f, exec i s ≠ .fault f

/-! ### TICK -/

/-- R81, R82, R83, R84, R86, R87: the debounce half of TICK, and that TICK completes. `roll` is the value of R85. -/
def Obligations.TickDebounceResult : Prop :=
  ∀ (pins : Sample) (s : State), s.issuer = .timer → s.init = true →
    let raw : Lanes := ~~~ (pins.extractLsb' 0 2)
    let changed := raw ^^^ s.keyState
    let ct0' := ~~~ (s.ct0 &&& changed)
    let ct1' := ct0' ^^^ (s.ct1 &&& changed)
    let roll := changed &&& ct0' &&& ct1'
    ∃ t, exec (.tick pins) s = .next t ∧
      t.ct0 = ct0' ∧ t.ct1 = ct1' ∧ t.keyState = s.keyState ^^^ roll ∧
      t.keyPress = s.keyPress ||| ((s.keyState ^^^ roll) &&& roll)

/-- R80, R100, R102, R103, R105 (decisions D7, D8, D10): the whole result of TICK, both halves and everything it
leaves alone. -/
def Obligations.TickResultWhole : Prop :=
  ∀ (pins : Sample) (s : State), s.issuer = .timer → s.init = true →
    let raw : Lanes := ~~~ (pins.extractLsb' 0 2)
    let changed := raw ^^^ s.keyState
    let ct0' := ~~~ (s.ct0 &&& changed)
    let ct1' := ct0' ^^^ (s.ct1 &&& changed)
    let roll := changed &&& ct0' &&& ct1'
    let keyState' := s.keyState ^^^ roll
    let new : Phase := pins.extractLsb' 2 1 ++ (pins.extractLsb' 2 1 ^^^ pins.extractLsb' 3 1)
    let diff : Byte := s.encLast.setWidth 8 - new.setWidth 8
    exec (.tick pins) s = .next { s with
      ct0 := ct0', ct1 := ct1', keyState := keyState', keyPress := s.keyPress ||| (keyState' &&& roll),
      encLast := if diff.getLsbD 0 then new else s.encLast,
      encDelta := if diff.getLsbD 0 then s.encDelta + (if diff.getLsbD 1 then 0x01#8 else 0xFF#8)
        else s.encDelta,
      reply := .nothing }

/-- R101 and the table of R106 (decisions D7, D10), with the wrap of R105 (D8): the quadrature half of TICK by the
direction of the phase, for every pre-tick ENC_LAST and every sampled pair of lines. -/
def Obligations.TickQuadratureTable : Prop :=
  ∀ (pins : Sample) (s : State), s.issuer = .timer → s.init = true →
    let phase : Phase := match pins.getLsbD 2, pins.getLsbD 3 with
      | false, false => 0
      | false, true  => 1
      | true,  true  => 2
      | true,  false => 3
    ∃ t, exec (.tick pins) s = .next t ∧
      (phase = s.encLast + 1 → t.encLast = phase ∧
        sint8 t.encDelta = if s.encDelta = 0x7F#8 then -128 else sint8 s.encDelta + 1) ∧
      (phase = s.encLast - 1 → t.encLast = phase ∧
        sint8 t.encDelta = if s.encDelta = 0x80#8 then 127 else sint8 s.encDelta - 1) ∧
      (phase = s.encLast ∨ phase = s.encLast + 2 → t.encLast = s.encLast ∧ t.encDelta = s.encDelta)

/-- R104: an even difference changes neither ENC_LAST nor ENC_DELTA. -/
def Obligations.EvenPhaseDifferenceChangesNothing : Prop :=
  ∀ (pins : Sample) (s t : State),
    exec (.tick pins) s = .next t →
    (s.encLast.toNat + 4 - (samplePhase pins).toNat) % 2 = 0 →
    t.encLast = s.encLast ∧ t.encDelta = s.encDelta

/-- R80, R32: what TICK leaves alone, and that it returns nothing. -/
def Obligations.TickFrame : Prop :=
  ∀ (pins : Sample) (s t : State), exec (.tick pins) s = .next t →
    t.fault = s.fault ∧ t.init = s.init ∧ t.pending = s.pending ∧ t.issuer = s.issuer ∧ t.reply = .nothing

/-- R89, R90 (with the pending count of R23): on each key, TICK is the per-key step. -/
def Obligations.DebounceIsThePerKeyStep : Prop :=
  ∀ (pins : Sample) (s t : State) (k : Nat), k < 2 → exec (.tick pins) s = .next t →
    let n := pendingCount s k
    let state := s.keyState.getLsbD k
    let press := s.keyPress.getLsbD k
    let raw := !pins.getLsbD k
    (pendingCount t k, t.keyState.getLsbD k, t.keyPress.getLsbD k) =
      (if raw = state then (0, state, press)
       else if n < 3 then (n + 1, state, press)
       else (0, raw, press || raw))

/-- R91: the key lanes are independent: states and samples that agree on key k give results that agree on key k. -/
def Obligations.KeyLanesAreIndependent : Prop :=
  ∀ (pins pins' : Sample) (s s' t t' : State) (k : Nat), k < 2 →
    pins.getLsbD k = pins'.getLsbD k →
    s.keyState.getLsbD k = s'.keyState.getLsbD k → s.keyPress.getLsbD k = s'.keyPress.getLsbD k →
    s.ct0.getLsbD k = s'.ct0.getLsbD k → s.ct1.getLsbD k = s'.ct1.getLsbD k →
    exec (.tick pins) s = .next t → exec (.tick pins') s' = .next t' →
    t.keyState.getLsbD k = t'.keyState.getLsbD k ∧ t.keyPress.getLsbD k = t'.keyPress.getLsbD k ∧
    t.ct0.getLsbD k = t'.ct0.getLsbD k ∧ t.ct1.getLsbD k = t'.ct1.getLsbD k

/-- R92 items 1 and 3, R186: from a key at rest, ticks that all see it changed flip it on the fourth and not before;
a flip to pressed sets its flag and nothing else does. -/
def Obligations.FourthConsecutiveChangedTickFlips : Prop :=
  ∀ (k : Nat) (s : State) (ps : List Sample), k < 2 → s.init = true → pendingCount s k = 0 →
    ps.length ≤ 4 → (∀ p ∈ ps, (!p.getLsbD k) = !s.keyState.getLsbD k) →
    ∃ t, runAll (ps.map .tick) s = .next t ∧
      t.keyState.getLsbD k = (if ps.length = 4 then !s.keyState.getLsbD k else s.keyState.getLsbD k) ∧
      t.keyPress.getLsbD k = (s.keyPress.getLsbD k || (decide (ps.length = 4) && !s.keyState.getLsbD k)) ∧
      pendingCount t k = ps.length % 4

/-- R92 item 2, R186: from a key at rest, a run of ticks of any length in which every four consecutive ticks have one
that sees the key unchanged flips nothing and records no press of it. -/
def Obligations.ExcursionsBelowFourTicksNeverFlip : Prop :=
  ∀ (k : Nat) (s : State) (ps : List Sample), k < 2 → s.init = true → pendingCount s k = 0 →
    (∀ four : List Sample, four <:+: ps → four.length = 4 →
      ∃ p ∈ four, (!p.getLsbD k) = s.keyState.getLsbD k) →
    ∃ t, runAll (ps.map .tick) s = .next t ∧
      t.keyState.getLsbD k = s.keyState.getLsbD k ∧ t.keyPress.getLsbD k = s.keyPress.getLsbD k

/-- R92 item 5, R184: between two ticks that flip a key to pressed stand at least seven others, so the flips are at
least 8 ticks apart. -/
def Obligations.PressesAreAtLeastEightTicksApart : Prop :=
  ∀ (k : Nat) (p q : Sample) (ps : List Sample) (s s1 s2 s3 : State), k < 2 →
    runAll [.tick p] s = .next s1 → runAll (ps.map .tick) s1 = .next s2 → runAll [.tick q] s2 = .next s3 →
    s.keyState.getLsbD k = false → s1.keyState.getLsbD k = true →
    s2.keyState.getLsbD k = false → s3.keyState.getLsbD k = true →
    7 ≤ ps.length

/-- R108: after a skipped state, the next tick counts against the phase before the skip, as if the skipped tick had
not been. -/
def Obligations.TickAfterASkipCountsFromTheStalePhase : Prop :=
  ∀ (p q : Sample) (s : State), s.init = true → samplePhase p = s.encLast + 2 →
    ∃ t t', runAll [.tick p, .tick q] s = .next t ∧ runAll [.tick q] s = .next t' ∧
      t.encLast = t'.encLast ∧ t.encDelta = t'.encDelta

/-- R107: over any run without a RESET, ENC_LAST moves by the net raw count of the ticks, modulo 4. The sign of a
count is decision D7. -/
def Obligations.PhaseTracksTheNetCount : Prop :=
  ∀ (n : Nat) (s t : State), run n s = .next t → noReset n s = true →
    t.encLast = s.encLast + BitVec.ofInt 2 (netCount n s)

/-- R109: from RESET on the same lines, inverting both encoder lines in every sample changes no register but ENC_LAST,
which is two phases on. -/
def Obligations.InvertedLinesCountAlike : Prop :=
  ∀ (p0 : Sample) (ps : List Sample) (s : State),
    ∃ t, runAll (.reset p0 :: ps.map .tick) s = .next t ∧
      runAll (.reset (invertLines p0) :: ps.map (fun p => .tick (invertLines p))) s =
        .next { t with encLast := t.encLast + 2 }

/-! ### The consumer's reads -/

/-- R120: GETKP returns the selected flags, zero-extended, clears them, and writes nothing else. -/
def Obligations.GetkpReturnsAndClearsSelectedFlags : Prop :=
  ∀ (mask : Byte) (s : State), s.issuer = .consumer → s.init = true →
    exec (.getkp mask) s = .next { s with
      keyPress := s.keyPress &&& ~~~ (mask.extractLsb' 0 2),
      reply := .result .consumer ((s.keyPress &&& mask.extractLsb' 0 2).setWidth 8) }

/-- R63, R120 (decision D26): mask bits 7:2 have no effect, and result bits 7:2 are 0. -/
def Obligations.GetkpIgnoresHighMaskBits : Prop :=
  ∀ (mask : Byte) (s t : State), exec (.getkp mask) s = .next t →
    exec (.getkp (mask &&& 0x03#8)) s = .next t ∧
    ∃ v, t.reply = .result .consumer v ∧ ∀ k, 2 ≤ k → v.getLsbD k = false

/-- R121: RD1 returns the whole accumulator and zeroes it, and writes nothing else. -/
def Obligations.Rd1ReturnsAndZeroesTheAccumulator : Prop :=
  ∀ s : State, s.issuer = .consumer → s.init = true →
    exec .rd1 s = .next { s with encDelta := 0x00#8, reply := .result .consumer s.encDelta }

/-- R122 (the floor is decision D9): RD2 returns the floor of half the accumulator, keeps its low bit, and writes
nothing else. -/
def Obligations.Rd2ReturnsHalfAndKeepsTheLowBit : Prop :=
  ∀ s : State, s.issuer = .consumer → s.init = true →
    exec .rd2 s = .next { s with
      encDelta := s.encDelta &&& 0x01#8,
      reply := .result .consumer (BitVec.ofInt 8 (s.encDelta.toInt / 2)) }

/-- R123 (the floor is decision D9): RD4 returns the floor of a quarter of the accumulator, keeps its low two bits,
and writes nothing else. -/
def Obligations.Rd4ReturnsQuarterAndKeepsTwoBits : Prop :=
  ∀ s : State, s.issuer = .consumer → s.init = true →
    exec .rd4 s = .next { s with
      encDelta := s.encDelta &&& 0x03#8,
      reply := .result .consumer (BitVec.ofInt 8 (s.encDelta.toInt / 4)) }

/-- R125: for each delta read, the returned units and the remainder together equal what the read took, and the
remainder is in [0, 2^s - 1]. -/
def Obligations.ReadUnitsAndRemainderEqualTheAccumulator : Prop :=
  ∀ (s t : State), ∀ x ∈ [(Instr.rd1, 0), (Instr.rd2, 1), (Instr.rd4, 2)],
    exec x.1 s = .next t →
    ∃ v, t.reply = .result .consumer v ∧
      2 ^ x.2 * sint8 v + sint8 t.encDelta = sint8 s.encDelta ∧
      0 ≤ sint8 t.encDelta ∧ sint8 t.encDelta ≤ 2 ^ x.2 - 1

/-- R46, R125: a second read of the same kind with no TICK in between completes and returns 0x00; for GETKP, with the
same mask. -/
def Obligations.SecondReadReturnsZero : Prop :=
  ∀ (s : State), s.init = true →
    ∀ i : Instr, (i = .rd1 ∨ i = .rd2 ∨ i = .rd4 ∨ ∃ m, i = .getkp m) →
    ∃ t, runAll [i, i] s = .next t ∧ t.reply = .result .consumer 0x00#8

/-- R120, R121, R122, R123, R32: what the reads leave alone: every register but the one each returns. -/
def Obligations.ReadFrames : Prop :=
  ∀ (s t : State) (i : Instr), (i = .rd1 ∨ i = .rd2 ∨ i = .rd4 ∨ ∃ m, i = .getkp m) →
    exec i s = .next t →
    t.keyState = s.keyState ∧ t.ct0 = s.ct0 ∧ t.ct1 = s.ct1 ∧ t.encLast = s.encLast ∧
    t.fault = s.fault ∧ t.init = s.init ∧ t.pending = s.pending ∧ t.issuer = s.issuer ∧
    ((∃ m, i = .getkp m) → t.encDelta = s.encDelta) ∧
    ((i = .rd1 ∨ i = .rd2 ∨ i = .rd4) → t.keyPress = s.keyPress)

/-- R124: once a GETKP has selected key k, every later GETKP returns bit k = 0 as long as no TICK has come, whatever
other commands stand between. -/
def Obligations.PressEventIsNotReturnedTwice : Prop :=
  ∀ (k : Nat) (m m' : Byte) (is : List Instr) (s : State), k < 2 → s.init = true →
    m.getLsbD k = true → (∀ i ∈ is, ∀ p, i ≠ .tick p) →
    ∃ t v, runAll (.getkp m :: is ++ [.getkp m']) s = .next t ∧
      t.reply = .result .consumer v ∧ v.getLsbD k = false

/-- R124: a press flag that is set is returned, and cleared, by the first later GETKP that selects its key, whatever
other commands (RESET apart) stand between. -/
def Obligations.PressEventIsKeptUntilRead : Prop :=
  ∀ (k : Nat) (m : Byte) (is : List Instr) (s : State), k < 2 → s.init = true →
    s.keyPress.getLsbD k = true → m.getLsbD k = true →
    (∀ i ∈ is, (∀ p, i ≠ .reset p) ∧ ∀ m', i = .getkp m' → m'.getLsbD k = false) →
    ∃ t v, runAll (is ++ [.getkp m]) s = .next t ∧
      t.reply = .result .consumer v ∧ v.getLsbD k = true ∧ t.keyPress.getLsbD k = false

/-- R126: over any run without a RESET and without a wrap, what the ticks added equals what the reads returned plus
the change of the accumulator, whichever readers are mixed. -/
def Obligations.ReadsAccountForEveryCount : Prop :=
  ∀ (n : Nat) (s t : State), run n s = .next t → noReset n s = true → noWrap n s = true →
    sint8 s.encDelta + netCount n s = netRead n s + sint8 t.encDelta

/-- R126 with R105 and R185: with wraps, the same account holds modulo 256. -/
def Obligations.ReadsAccountForCountsModulo256 : Prop :=
  ∀ (n : Nat) (s t : State), run n s = .next t → noReset n s = true →
    (sint8 s.encDelta + netCount n s - (netRead n s + sint8 t.encDelta)) % 256 = 0

/-- R185: from a remainder of 0 to 3, up to 124 ticks complete and never wrap the accumulator. -/
def Obligations.UpTo124TicksNeverWrap : Prop :=
  ∀ (s : State) (ps : List Sample), s.init = true → s.encDelta ≤ 0x03#8 → ps.length ≤ 124 →
    ∃ t, runAll (ps.map .tick) s = .next t ∧
      sint8 t.encDelta = sint8 s.encDelta + netCount ps.length (load (ps.map .tick) s)

/-! ### RESET and WAKE -/

/-- R36 and R140 (decisions D3, D4, D5, D6, D18, D19, D27): RESET completes before and after an earlier RESET, gives
every register its value, takes ENC_LAST from the lines, ignores the key lines and keeps FAULT. -/
def Obligations.ResetResult : Prop :=
  ∀ (pins : Sample) (s : State), s.issuer = .platform →
    exec (.reset pins) s = .next { s with
      keyState := 0b00#2, keyPress := 0b00#2, ct0 := 0b11#2, ct1 := 0b11#2,
      encLast := pins.extractLsb' 2 1 ++ (pins.extractLsb' 2 1 ^^^ pins.extractLsb' 3 1),
      encDelta := 0x00#8, init := true, reply := .nothing }

/-- R141 (decision D20): WAKE completes after RESET, changes no register and returns nothing. -/
def Obligations.WakeResult : Prop :=
  ∀ s : State, s.issuer = .platform → s.init = true → exec .wake s = .next { s with reply := .nothing }

/-- R36, and assumption 1 (the sample 0x3 is the model's choice): whatever the unspecified registers hold at power-up,
`RESET #0x3` leaves the launch state of the model. -/
def Obligations.LaunchStateIsWhatResetLeaves : Prop :=
  ∀ (ks kp ct0 ct1 : Lanes) (el : Phase) (ed : Byte),
    runAll [.reset 0x3#4] (State.powerUp ks kp ct0 ct1 el ed) = .next State.reset

/-- R189: a key held from RESET on reads as released until the fourth tick sees it pressed, which sets KEY_STATE and
KEY_PRESS for it. -/
def Obligations.KeyHeldAtResetIsPressedOnTheFourthTick : Prop :=
  ∀ (k : Nat) (p0 : Sample) (ps : List Sample) (s : State), k < 2 → ps.length ≤ 4 →
    (∀ p ∈ ps, p.getLsbD k = false) →
    ∃ t, runAll (.reset p0 :: ps.map .tick) s = .next t ∧
      t.keyState.getLsbD k = decide (ps.length = 4) ∧ t.keyPress.getLsbD k = decide (ps.length = 4)

/-- R141 (decision D20): leaving out every WAKE of a run leaves every register as it would be. -/
def Obligations.WakeNeverMatters : Prop :=
  ∀ (is : List Instr) (s : State), s.init = true →
    ∃ t t', runAll is s = .next t ∧ runAll (is.filter fun i => decide (i ≠ .wake)) s = .next t' ∧
      registers t = registers t'

/-! ### Rules about every register and every step -/

/-- R32, R21, R23: KEY_STATE, CT0 and CT1 are written by TICK and RESET only, INIT by RESET only, and no legal
operation writes FAULT. -/
def Obligations.HiddenRegistersHaveOnlyTheirWriters : Prop :=
  ∀ (i : Instr) (s t : State), exec i s = .next t →
    ((∀ p, i ≠ .tick p) → (∀ p, i ≠ .reset p) →
      t.keyState = s.keyState ∧ t.ct0 = s.ct0 ∧ t.ct1 = s.ct1) ∧
    ((∀ p, i ≠ .reset p) → t.init = s.init) ∧ t.fault = s.fault

/-- R22: KEY_PRESS is set per key by a TICK on a 0 to 1 transition of KEY_STATE and never cleared by one; GETKP
returns the bits it selects and clears them; RESET clears every bit; no other operation writes it. -/
def Obligations.PressFlagsSetByPressesAndClearedByReads : Prop :=
  ∀ (i : Instr) (s t : State), exec i s = .next t →
    match i with
    | .tick _ => ∀ k, k < 2 → t.keyPress.getLsbD k =
        (s.keyPress.getLsbD k || (!s.keyState.getLsbD k && t.keyState.getLsbD k))
    | .getkp m =>
        (∀ k, k < 2 → t.keyPress.getLsbD k = (s.keyPress.getLsbD k && !m.getLsbD k)) ∧
        ∃ v, t.reply = .result .consumer v ∧
          ∀ k, k < 2 → v.getLsbD k = (s.keyPress.getLsbD k && m.getLsbD k)
    | .reset _ => t.keyPress = 0#2
    | .rd1 | .rd2 | .rd4 | .wake => t.keyPress = s.keyPress

/-- R24: ENC_LAST holds the phase of the last accepted transition, or the one sampled at RESET: a TICK whose phase
differs by an odd number stores the new phase, RESET stores the sampled one, and nothing else writes it. Only TICK
reads it, for the direction of a count, and no operation returns it: with any other ENC_LAST an operation ends the same
but for ENC_LAST itself and, for TICK, ENC_DELTA. -/
def Obligations.EncLastIsTheLastAcceptedPhase : Prop :=
  (∀ (i : Instr) (s t : State), exec i s = .next t →
    match i with
    | .tick p => t.encLast =
        (if (s.encLast.toNat + 4 - (samplePhase p).toNat) % 2 = 1 then samplePhase p else s.encLast)
    | .reset p => t.encLast = samplePhase p
    | .getkp _ | .rd1 | .rd2 | .rd4 | .wake => t.encLast = s.encLast) ∧
  (∀ (i : Instr) (s t : State) (e : Phase), exec i s = .next t →
    ∃ e' d', exec i { s with encLast := e } = .next { t with encLast := e', encDelta := d' } ∧
      ((∀ p, i ≠ .tick p) → d' = t.encDelta))

/-- The writers of ENC_DELTA in 10_state.md section 1 (R25; the modulus is decision D8, the RESET value D6): TICK adds
+1 or -1 modulo 2^8, once per valid phase transition; RD1, RD2 and RD4 replace ENC_DELTA with 0 or with its low 1 or 2
bits; RESET sets it to 0; no other operation writes it. What the reads return is said by
Rd1ReturnsAndZeroesTheAccumulator, Rd2ReturnsHalfAndKeepsTheLowBit and Rd4ReturnsQuarterAndKeepsTwoBits. -/
def Obligations.EncDeltaCountsTransitionsAndIsConsumedByReads : Prop :=
  ∀ (i : Instr) (s t : State), exec i s = .next t →
    match i with
    | .tick p =>
        if (s.encLast.toNat + 4 - (samplePhase p).toNat) % 2 = 1
        then t.encDelta = s.encDelta + 1 ∨ t.encDelta = s.encDelta - 1
        else t.encDelta = s.encDelta
    | .rd1 => t.encDelta = 0#8
    | .rd2 => t.encDelta.toNat = s.encDelta.toNat % 2
    | .rd4 => t.encDelta.toNat = s.encDelta.toNat % 4
    | .reset _ => t.encDelta = 0#8
    | .getkp _ | .wake => t.encDelta = s.encDelta

/-- R29: a result goes to the consumer, exactly from GETKP, RD1, RD2 and RD4; TICK, WAKE and RESET return nothing; no
legal operation reports a fault. -/
def Obligations.ResultsGoToTheConsumerOnly : Prop :=
  ∀ (i : Instr) (s t : State), exec i s = .next t →
    ((∃ v, t.reply = .result .consumer v) ↔ (i = .rd1 ∨ i = .rd2 ∨ i = .rd4 ∨ ∃ m, i = .getkp m)) ∧
    (t.reply = .nothing ↔ (i = .wake ∨ (∃ p, i = .tick p) ∨ ∃ p, i = .reset p))

/-- R26, R142 (decisions D12, D19): FAULT is 1 after a step exactly when it was 1 before or the step took an illegal
word; no step clears it and none stops with a fault. -/
def Obligations.FaultIsStickyAndSetByIllegalWordsOnly : Prop :=
  ∀ s : State, (∀ f, step s ≠ .fault f) ∧
    ∀ t, step s = .next t →
      (t.fault = true ↔
        s.fault = true ∨ ∃ r rest e, s.pending = r :: rest ∧ decode r.word = .error e)

/-- R27 (decision D18): INIT is 1 after a step exactly when it was 1 before or the step ran a RESET. -/
def Obligations.InitIsSetByResetOnly : Prop :=
  ∀ s t : State, step s = .next t →
    (t.init = true ↔
      s.init = true ∨ ∃ r rest p, s.pending = r :: rest ∧ decode r.word = .ok (.reset p))

/-- R48, R165, R166 (decisions D1, D16): a run takes the commands whole, one a step, in their order, each once; none is
lost or merged. -/
def Obligations.CommandsAreTakenOnceInOrder : Prop :=
  ∀ (n : Nat) (s t : State), run n s = .next t → t.pending = s.pending.drop n

/-- R36, R180 and 93_implementation_defined.md section 2 (decision D18): what the unspecified registers hold before
the first RESET never shows: a run that gets past a RESET ends in the same state from any other values of them. -/
def Obligations.PowerUpValuesNeverMatter : Prop :=
  ∀ (n : Nat) (s s' t : State), s.init = false → s'.init = false →
    s.fault = s'.fault → s.pending = s'.pending →
    run n s = .next t → t.init = true → run n s' = .next t

/-- R161, R180, R26: a block that RESET has initialised, that has seen no illegal word and to which every command is
legal and issued by its owner stays so under every step. -/
def Obligations.WellDrivenIsKeptByEveryStep : Prop :=
  ∀ s t : State, WellDriven s → step s = .next t → WellDriven t

/-- R26, R161, R163: a well-driven block never stops: it runs any number of steps, without a fault or a refusal, and
ends in a good final state. -/
def Obligations.WellDrivenRunsNeverStop : Prop :=
  ∀ (n : Nat) (s : State), WellDriven s → ∃ t, run n s = .next t ∧ WellDriven t ∧ goodFinal t = true

/-- R161, R180 and assumption 1: the launch state of the model is well driven, and stays so with any commands issued
by their owners. -/
def Obligations.LaunchStateIsWellDriven : Prop :=
  WellDriven State.reset ∧ ∀ is : List Instr, WellDriven (load is State.reset)

/-- R180, R181 (decision D18): launched from power-up with RESET first, the block is well driven after one step, with
the phase of the sampled lines in ENC_LAST. -/
def Obligations.ResetFirstLaunchesAWellDrivenBlock : Prop :=
  ∀ (pins : Sample) (rest : List Request) (s : State), LaunchedByReset pins rest s →
    ∃ t, step s = .next t ∧ WellDriven t ∧ t.encLast = samplePhase pins ∧ t.pending = rest
end

