-- ==== Sys2Proof/Laws/State.lean ====
section
/-! SUPPORT. What every update of the state does to every field: one lemma per field per update. -/

namespace Sys2Proof.Machine

variable (s : State)

@[simp] theorem returnNothing_keyState : (returnNothing s).keyState = s.keyState := rfl
@[simp] theorem returnNothing_keyPress : (returnNothing s).keyPress = s.keyPress := rfl
@[simp] theorem returnNothing_ct0 : (returnNothing s).ct0 = s.ct0 := rfl
@[simp] theorem returnNothing_ct1 : (returnNothing s).ct1 = s.ct1 := rfl
@[simp] theorem returnNothing_encLast : (returnNothing s).encLast = s.encLast := rfl
@[simp] theorem returnNothing_encDelta : (returnNothing s).encDelta = s.encDelta := rfl
@[simp] theorem returnNothing_fault : (returnNothing s).fault = s.fault := rfl
@[simp] theorem returnNothing_init : (returnNothing s).init = s.init := rfl
@[simp] theorem returnNothing_pending : (returnNothing s).pending = s.pending := rfl
@[simp] theorem returnNothing_issuer : (returnNothing s).issuer = s.issuer := rfl
@[simp] theorem returnNothing_reply : (returnNothing s).reply = .nothing := rfl

@[simp] theorem returnByte_keyState (v : Byte) : (returnByte v s).keyState = s.keyState := rfl
@[simp] theorem returnByte_keyPress (v : Byte) : (returnByte v s).keyPress = s.keyPress := rfl
@[simp] theorem returnByte_ct0 (v : Byte) : (returnByte v s).ct0 = s.ct0 := rfl
@[simp] theorem returnByte_ct1 (v : Byte) : (returnByte v s).ct1 = s.ct1 := rfl
@[simp] theorem returnByte_encLast (v : Byte) : (returnByte v s).encLast = s.encLast := rfl
@[simp] theorem returnByte_encDelta (v : Byte) : (returnByte v s).encDelta = s.encDelta := rfl
@[simp] theorem returnByte_fault (v : Byte) : (returnByte v s).fault = s.fault := rfl
@[simp] theorem returnByte_init (v : Byte) : (returnByte v s).init = s.init := rfl
@[simp] theorem returnByte_pending (v : Byte) : (returnByte v s).pending = s.pending := rfl
@[simp] theorem returnByte_issuer (v : Byte) : (returnByte v s).issuer = s.issuer := rfl
@[simp] theorem returnByte_reply (v : Byte) : (returnByte v s).reply = .result s.issuer v := rfl

@[simp] theorem takeFault_keyState (f : Fault) : (takeFault f s).keyState = s.keyState := rfl
@[simp] theorem takeFault_keyPress (f : Fault) : (takeFault f s).keyPress = s.keyPress := rfl
@[simp] theorem takeFault_ct0 (f : Fault) : (takeFault f s).ct0 = s.ct0 := rfl
@[simp] theorem takeFault_ct1 (f : Fault) : (takeFault f s).ct1 = s.ct1 := rfl
@[simp] theorem takeFault_encLast (f : Fault) : (takeFault f s).encLast = s.encLast := rfl
@[simp] theorem takeFault_encDelta (f : Fault) : (takeFault f s).encDelta = s.encDelta := rfl
@[simp] theorem takeFault_fault (f : Fault) : (takeFault f s).fault = true := rfl
@[simp] theorem takeFault_init (f : Fault) : (takeFault f s).init = s.init := rfl
@[simp] theorem takeFault_pending (f : Fault) : (takeFault f s).pending = s.pending := rfl
@[simp] theorem takeFault_issuer (f : Fault) : (takeFault f s).issuer = s.issuer := rfl
@[simp] theorem takeFault_reply (f : Fault) : (takeFault f s).reply = .fault f := rfl

@[simp] theorem acceptRequest_keyState (r : Request) (rest : List Request) : (acceptRequest r rest s).keyState = s.keyState := rfl
@[simp] theorem acceptRequest_keyPress (r : Request) (rest : List Request) : (acceptRequest r rest s).keyPress = s.keyPress := rfl
@[simp] theorem acceptRequest_ct0 (r : Request) (rest : List Request) : (acceptRequest r rest s).ct0 = s.ct0 := rfl
@[simp] theorem acceptRequest_ct1 (r : Request) (rest : List Request) : (acceptRequest r rest s).ct1 = s.ct1 := rfl
@[simp] theorem acceptRequest_encLast (r : Request) (rest : List Request) : (acceptRequest r rest s).encLast = s.encLast := rfl
@[simp] theorem acceptRequest_encDelta (r : Request) (rest : List Request) : (acceptRequest r rest s).encDelta = s.encDelta := rfl
@[simp] theorem acceptRequest_fault (r : Request) (rest : List Request) : (acceptRequest r rest s).fault = s.fault := rfl
@[simp] theorem acceptRequest_init (r : Request) (rest : List Request) : (acceptRequest r rest s).init = s.init := rfl
@[simp] theorem acceptRequest_pending (r : Request) (rest : List Request) : (acceptRequest r rest s).pending = rest := rfl
@[simp] theorem acceptRequest_issuer (r : Request) (rest : List Request) : (acceptRequest r rest s).issuer = r.agent := rfl
@[simp] theorem acceptRequest_reply (r : Request) (rest : List Request) : (acceptRequest r rest s).reply = s.reply := rfl

@[simp] theorem debounce_keyState (p : Sample) : (debounce p s).keyState = flipState s.keyState (rollover (changedKeys (rawLevels p) s.keyState) (nextCt0 s.ct0 (changedKeys (rawLevels p) s.keyState)) (nextCt1 (nextCt0 s.ct0 (changedKeys (rawLevels p) s.keyState)) s.ct1 (changedKeys (rawLevels p) s.keyState))) := rfl
@[simp] theorem debounce_keyPress (p : Sample) : (debounce p s).keyPress = setPressFlags s.keyPress (flipState s.keyState (rollover (changedKeys (rawLevels p) s.keyState) (nextCt0 s.ct0 (changedKeys (rawLevels p) s.keyState)) (nextCt1 (nextCt0 s.ct0 (changedKeys (rawLevels p) s.keyState)) s.ct1 (changedKeys (rawLevels p) s.keyState)))) (rollover (changedKeys (rawLevels p) s.keyState) (nextCt0 s.ct0 (changedKeys (rawLevels p) s.keyState)) (nextCt1 (nextCt0 s.ct0 (changedKeys (rawLevels p) s.keyState)) s.ct1 (changedKeys (rawLevels p) s.keyState))) := rfl
@[simp] theorem debounce_ct0 (p : Sample) : (debounce p s).ct0 = nextCt0 s.ct0 (changedKeys (rawLevels p) s.keyState) := rfl
@[simp] theorem debounce_ct1 (p : Sample) : (debounce p s).ct1 = nextCt1 (nextCt0 s.ct0 (changedKeys (rawLevels p) s.keyState)) s.ct1 (changedKeys (rawLevels p) s.keyState) := rfl
@[simp] theorem debounce_encLast (p : Sample) : (debounce p s).encLast = s.encLast := rfl
@[simp] theorem debounce_encDelta (p : Sample) : (debounce p s).encDelta = s.encDelta := rfl
@[simp] theorem debounce_fault (p : Sample) : (debounce p s).fault = s.fault := rfl
@[simp] theorem debounce_init (p : Sample) : (debounce p s).init = s.init := rfl
@[simp] theorem debounce_pending (p : Sample) : (debounce p s).pending = s.pending := rfl
@[simp] theorem debounce_issuer (p : Sample) : (debounce p s).issuer = s.issuer := rfl
@[simp] theorem debounce_reply (p : Sample) : (debounce p s).reply = s.reply := rfl

@[simp] theorem quadrature_keyState (p : Sample) : (quadrature p s).keyState = s.keyState := rfl
@[simp] theorem quadrature_keyPress (p : Sample) : (quadrature p s).keyPress = s.keyPress := rfl
@[simp] theorem quadrature_ct0 (p : Sample) : (quadrature p s).ct0 = s.ct0 := rfl
@[simp] theorem quadrature_ct1 (p : Sample) : (quadrature p s).ct1 = s.ct1 := rfl
@[simp] theorem quadrature_encLast (p : Sample) : (quadrature p s).encLast = (quadStep s.encLast s.encDelta (lineA p) (lineB p)).1 := rfl
@[simp] theorem quadrature_encDelta (p : Sample) : (quadrature p s).encDelta = (quadStep s.encLast s.encDelta (lineA p) (lineB p)).2 := rfl
@[simp] theorem quadrature_fault (p : Sample) : (quadrature p s).fault = s.fault := rfl
@[simp] theorem quadrature_init (p : Sample) : (quadrature p s).init = s.init := rfl
@[simp] theorem quadrature_pending (p : Sample) : (quadrature p s).pending = s.pending := rfl
@[simp] theorem quadrature_issuer (p : Sample) : (quadrature p s).issuer = s.issuer := rfl
@[simp] theorem quadrature_reply (p : Sample) : (quadrature p s).reply = s.reply := rfl

@[simp] theorem tickEffect_keyState (p : Sample) : (tickEffect p s).keyState = flipState s.keyState (rollover (changedKeys (rawLevels p) s.keyState) (nextCt0 s.ct0 (changedKeys (rawLevels p) s.keyState)) (nextCt1 (nextCt0 s.ct0 (changedKeys (rawLevels p) s.keyState)) s.ct1 (changedKeys (rawLevels p) s.keyState))) := rfl
@[simp] theorem tickEffect_keyPress (p : Sample) : (tickEffect p s).keyPress = setPressFlags s.keyPress (flipState s.keyState (rollover (changedKeys (rawLevels p) s.keyState) (nextCt0 s.ct0 (changedKeys (rawLevels p) s.keyState)) (nextCt1 (nextCt0 s.ct0 (changedKeys (rawLevels p) s.keyState)) s.ct1 (changedKeys (rawLevels p) s.keyState)))) (rollover (changedKeys (rawLevels p) s.keyState) (nextCt0 s.ct0 (changedKeys (rawLevels p) s.keyState)) (nextCt1 (nextCt0 s.ct0 (changedKeys (rawLevels p) s.keyState)) s.ct1 (changedKeys (rawLevels p) s.keyState))) := rfl
@[simp] theorem tickEffect_ct0 (p : Sample) : (tickEffect p s).ct0 = nextCt0 s.ct0 (changedKeys (rawLevels p) s.keyState) := rfl
@[simp] theorem tickEffect_ct1 (p : Sample) : (tickEffect p s).ct1 = nextCt1 (nextCt0 s.ct0 (changedKeys (rawLevels p) s.keyState)) s.ct1 (changedKeys (rawLevels p) s.keyState) := rfl
@[simp] theorem tickEffect_encLast (p : Sample) : (tickEffect p s).encLast = (quadStep s.encLast s.encDelta (lineA p) (lineB p)).1 := rfl
@[simp] theorem tickEffect_encDelta (p : Sample) : (tickEffect p s).encDelta = (quadStep s.encLast s.encDelta (lineA p) (lineB p)).2 := rfl
@[simp] theorem tickEffect_fault (p : Sample) : (tickEffect p s).fault = s.fault := rfl
@[simp] theorem tickEffect_init (p : Sample) : (tickEffect p s).init = s.init := rfl
@[simp] theorem tickEffect_pending (p : Sample) : (tickEffect p s).pending = s.pending := rfl
@[simp] theorem tickEffect_issuer (p : Sample) : (tickEffect p s).issuer = s.issuer := rfl
@[simp] theorem tickEffect_reply (p : Sample) : (tickEffect p s).reply = .nothing := rfl

@[simp] theorem getkpEffect_keyState (m : Byte) : (getkpEffect m s).keyState = s.keyState := rfl
@[simp] theorem getkpEffect_keyPress (m : Byte) : (getkpEffect m s).keyPress = clearPressFlags s.keyPress m := rfl
@[simp] theorem getkpEffect_ct0 (m : Byte) : (getkpEffect m s).ct0 = s.ct0 := rfl
@[simp] theorem getkpEffect_ct1 (m : Byte) : (getkpEffect m s).ct1 = s.ct1 := rfl
@[simp] theorem getkpEffect_encLast (m : Byte) : (getkpEffect m s).encLast = s.encLast := rfl
@[simp] theorem getkpEffect_encDelta (m : Byte) : (getkpEffect m s).encDelta = s.encDelta := rfl
@[simp] theorem getkpEffect_fault (m : Byte) : (getkpEffect m s).fault = s.fault := rfl
@[simp] theorem getkpEffect_init (m : Byte) : (getkpEffect m s).init = s.init := rfl
@[simp] theorem getkpEffect_pending (m : Byte) : (getkpEffect m s).pending = s.pending := rfl
@[simp] theorem getkpEffect_issuer (m : Byte) : (getkpEffect m s).issuer = s.issuer := rfl
@[simp] theorem getkpEffect_reply (m : Byte) : (getkpEffect m s).reply = .result s.issuer ((selectedFlags s.keyPress m).setWidth 8) := rfl

@[simp] theorem deltaRead_keyState (n : Nat) : (deltaRead n s).keyState = s.keyState := rfl
@[simp] theorem deltaRead_keyPress (n : Nat) : (deltaRead n s).keyPress = s.keyPress := rfl
@[simp] theorem deltaRead_ct0 (n : Nat) : (deltaRead n s).ct0 = s.ct0 := rfl
@[simp] theorem deltaRead_ct1 (n : Nat) : (deltaRead n s).ct1 = s.ct1 := rfl
@[simp] theorem deltaRead_encLast (n : Nat) : (deltaRead n s).encLast = s.encLast := rfl
@[simp] theorem deltaRead_encDelta (n : Nat) : (deltaRead n s).encDelta = lowBits s.encDelta n := rfl
@[simp] theorem deltaRead_fault (n : Nat) : (deltaRead n s).fault = s.fault := rfl
@[simp] theorem deltaRead_init (n : Nat) : (deltaRead n s).init = s.init := rfl
@[simp] theorem deltaRead_pending (n : Nat) : (deltaRead n s).pending = s.pending := rfl
@[simp] theorem deltaRead_issuer (n : Nat) : (deltaRead n s).issuer = s.issuer := rfl
@[simp] theorem deltaRead_reply (n : Nat) : (deltaRead n s).reply = .result s.issuer (asr s.encDelta n) := rfl

@[simp] theorem resetEffect_keyState (p : Sample) : (resetEffect p s).keyState = 0b00#2 := rfl
@[simp] theorem resetEffect_keyPress (p : Sample) : (resetEffect p s).keyPress = 0b00#2 := rfl
@[simp] theorem resetEffect_ct0 (p : Sample) : (resetEffect p s).ct0 = 0b11#2 := rfl
@[simp] theorem resetEffect_ct1 (p : Sample) : (resetEffect p s).ct1 = 0b11#2 := rfl
@[simp] theorem resetEffect_encLast (p : Sample) : (resetEffect p s).encLast = samplePhase p := rfl
@[simp] theorem resetEffect_encDelta (p : Sample) : (resetEffect p s).encDelta = 0x00#8 := rfl
@[simp] theorem resetEffect_fault (p : Sample) : (resetEffect p s).fault = s.fault := rfl
@[simp] theorem resetEffect_init (p : Sample) : (resetEffect p s).init = true := rfl
@[simp] theorem resetEffect_pending (p : Sample) : (resetEffect p s).pending = s.pending := rfl
@[simp] theorem resetEffect_issuer (p : Sample) : (resetEffect p s).issuer = s.issuer := rfl
@[simp] theorem resetEffect_reply (p : Sample) : (resetEffect p s).reply = .nothing := rfl

@[simp] theorem load_keyState (is : List Instr) : (load is s).keyState = s.keyState := rfl
@[simp] theorem load_keyPress (is : List Instr) : (load is s).keyPress = s.keyPress := rfl
@[simp] theorem load_ct0 (is : List Instr) : (load is s).ct0 = s.ct0 := rfl
@[simp] theorem load_ct1 (is : List Instr) : (load is s).ct1 = s.ct1 := rfl
@[simp] theorem load_encLast (is : List Instr) : (load is s).encLast = s.encLast := rfl
@[simp] theorem load_encDelta (is : List Instr) : (load is s).encDelta = s.encDelta := rfl
@[simp] theorem load_fault (is : List Instr) : (load is s).fault = s.fault := rfl
@[simp] theorem load_init (is : List Instr) : (load is s).init = s.init := rfl
@[simp] theorem load_pending (is : List Instr) : (load is s).pending = is.map ownRequest := rfl
@[simp] theorem load_issuer (is : List Instr) : (load is s).issuer = s.issuer := rfl
@[simp] theorem load_reply (is : List Instr) : (load is s).reply = s.reply := rfl

end Sys2Proof.Machine
end

