-- ==== Sys2Proof/Laws/Exec.lean ====
section
/-! SUPPORT. What the shared operations and the meanings can do: `perform` and `exec`, said once. -/

namespace Sys2Proof.Machine

/-- The effect an admitted instruction has. -/
def effect : Instr → State → State
  | .tick pins  => tickEffect pins
  | .getkp mask => getkpEffect mask
  | .rd1        => deltaRead 0
  | .rd2        => deltaRead 1
  | .rd4        => deltaRead 2
  | .wake       => returnNothing
  | .reset pins => resetEffect pins

/-- When an instruction is admitted: issued by its owner, and after RESET unless it is RESET. -/
abbrev Admitted (i : Instr) (s : State) : Prop :=
  s.issuer = owner i ∧ (s.init = true ∨ needsInit i = false)

theorem perform_of_admitted {i : Instr} {s : State} (t : State) (h : Admitted i s) : perform i s t = .next t := by
  obtain ⟨ha, hi⟩ := h
  rcases hi with hi | hi <;> simp [perform, ha, hi]

theorem perform_eq_next {i : Instr} {s t u : State} : perform i s t = .next u ↔ Admitted i s ∧ u = t := by
  constructor
  · intro h
    unfold perform at h
    split at h
    · split at h
      · rename_i ha hi
        simp only [Bool.or_eq_true, Bool.not_eq_true'] at hi
        simp only [Host.Outcome.next.injEq] at h
        exact ⟨⟨ha, hi⟩, h.symm⟩
      · cases h
    · cases h
  · rintro ⟨h, rfl⟩
    exact perform_of_admitted _ h

theorem perform_ne_fault (i : Instr) (s t : State) (f : Fault) : perform i s t ≠ .fault f := by
  unfold perform
  split
  · split <;> simp
  · simp

/-- WRONG_AGENT is reported whatever INIT is (R163). -/
theorem perform_wrongAgent {i : Instr} {s : State} (t : State) (h : s.issuer ≠ owner i) :
    perform i s t = .refused (.wrongAgent (encode i) s.issuer) := by
  simp [perform, h]

theorem perform_notInitialised {i : Instr} {s : State} (t : State) (ha : s.issuer = owner i)
    (hi : s.init = false) (hn : needsInit i = true) : perform i s t = .refused (.notInitialised (encode i)) := by
  simp [perform, ha, hi, hn]

/-- Every meaning is the admission of the instruction's effect. -/
theorem exec_eq_perform (i : Instr) (s : State) : exec i s = perform i s (effect i s) := by
  cases i <;> rfl

/-- Everything an instruction can do when it answers a next state. -/
theorem exec_eq_next {i : Instr} {s t : State} : exec i s = .next t ↔ Admitted i s ∧ t = effect i s := by
  rw [exec_eq_perform, perform_eq_next]

/-- No operation touches the requests still to come or its issuer. -/
theorem effect_pending (i : Instr) (s : State) : (effect i s).pending = s.pending := by cases i <;> rfl

theorem effect_issuer (i : Instr) (s : State) : (effect i s).issuer = s.issuer := by cases i <;> rfl

theorem effect_fault (i : Instr) (s : State) : (effect i s).fault = s.fault := by cases i <;> rfl

theorem effect_init (i : Instr) (s : State) : (effect i s).init = (s.init || !needsInit i) := by
  cases i <;> simp [effect, needsInit]

end Sys2Proof.Machine
end

