-- ==== Sys2Proof/Laws/Step.lean ====
section
/-! SUPPORT. What a step can do, said once, and runs one step at a time. -/

namespace Sys2Proof.Machine

theorem step_of_nil {s : State} (h : s.pending = []) : step s = .next s := by
  simp [step, h, idle]

theorem step_of_legal {s : State} {r : Request} {rest : List Request} {i : Instr}
    (hp : s.pending = r :: rest) (hd : decode r.word = .ok i) : step s = exec i (acceptRequest r rest s) := by
  simp [step, hp, hd]

theorem step_of_illegal {s : State} {r : Request} {rest : List Request} {e : Illegal}
    (hp : s.pending = r :: rest) (hd : decode r.word = .error e) :
    step s = .next (takeFault (.illegalCommand r.word) (acceptRequest r rest s)) := by
  simp [step, hp, hd]

/-- The three ways a step answers a next state: idle, an admitted instruction, a fault taken. -/
theorem step_cases {s t : State} (h : step s = .next t) :
    (s.pending = [] ∧ t = s) ∨
    (∃ r rest i, s.pending = r :: rest ∧ decode r.word = .ok i ∧ Admitted i (acceptRequest r rest s) ∧
      t = effect i (acceptRequest r rest s)) ∨
    (∃ r rest e, s.pending = r :: rest ∧ decode r.word = .error e ∧
      t = takeFault (.illegalCommand r.word) (acceptRequest r rest s)) := by
  cases hp : s.pending with
  | nil =>
    rw [step_of_nil hp] at h
    cases h
    exact .inl ⟨rfl, rfl⟩
  | cons r rest =>
    cases hd : decode r.word with
    | ok i =>
      rw [step_of_legal hp hd, exec_eq_next] at h
      exact .inr (.inl ⟨r, rest, i, rfl, hd, h.1, h.2⟩)
    | error e =>
      rw [step_of_illegal hp hd] at h
      cases h
      exact .inr (.inr ⟨r, rest, e, rfl, hd, rfl⟩)

/-- No step stops the machine with a fault: the one fault of R163 is taken (R142). -/
theorem step_ne_fault (s : State) (f : Fault) : step s ≠ .fault f := by
  unfold step
  split
  · simp
  · split
    · rw [exec_eq_perform]
      exact perform_ne_fault _ _ _ f
    · simp

/-- One step of the host's run, by the cases of the outcome. -/
theorem host_run_succ (M : Host.Core) (n : Nat) (s : M.State) :
    M.run (n + 1) s =
      Host.Outcome.casesOn (M.step s) (fun t => M.run n t) (fun f => .fault f) (fun r => .refused r) := by
  rw [Host.Core.run]
  cases M.step s <;> rfl

theorem run_succ (n : Nat) (s : State) :
    run (n + 1) s =
      Host.Outcome.casesOn (step s) (fun t => run n t) (fun f => .fault f) (fun r => .refused r) := by
  rw [run]
  cases step s <;> rfl

/-- The model's run is the host's. -/
theorem run_eq_core_run : ∀ (n : Nat) (s : State), run n s = Sys2Proof.core.run n s
  | 0, _ => rfl
  | n + 1, s => by
    have ih : run n = Sys2Proof.core.run n := funext (run_eq_core_run n)
    have h := run_succ n s
    rw [ih] at h
    exact h.trans (host_run_succ Sys2Proof.core n s).symm

theorem run_zero (s : State) : run 0 s = .next s := rfl

theorem run_succ_of_next {s t : State} (n : Nat) (h : step s = .next t) : run (n + 1) s = run n t := by
  simp [run, h]

/-- A run of `n + 1` steps that completes is a step that completes and then a run of `n`. -/
theorem run_succ_cases {n : Nat} {s u : State} (h : run (n + 1) s = .next u) :
    ∃ t, step s = .next t ∧ run n t = .next u := by
  cases hs : step s with
  | next t => exact ⟨t, rfl, by rw [← run_succ_of_next n hs]; exact h⟩
  | fault r => exact absurd hs (step_ne_fault s r)
  | refused r => simp [run, hs] at h

/-- A property every step keeps holds at the end of every run that completes. -/
theorem run_induction {P : State → Prop} (hstep : ∀ s t, P s → step s = .next t → P t) :
    ∀ n s u, P s → run n s = .next u → P u
  | 0, s, u, hs, h => by
    cases h
    exact hs
  | n + 1, s, u, hs, h => by
    obtain ⟨t, ht, hu⟩ := run_succ_cases h
    exact run_induction hstep n t u (hstep s t hs ht) hu

end Sys2Proof.Machine
end

