-- ==== Sys2Proof/Laws/PerInstr.lean ====
section
/-! SUPPORT. Statements made of every instruction as syntax, one lemma per constructor: its word matches its row of
R67, and its source form is well formed and stands for it (R69). -/

namespace Sys2Proof.Laws

/-- The encoded word matches the match and mask of its row (R67). -/
def TableRow.Statement (i : Instr) : Prop := encode i &&& (tableRow i).2 = (tableRow i).1

theorem TableRow.tick : ∀ pins, TableRow.Statement (.tick pins) := by
  unfold TableRow.Statement
  decide

theorem TableRow.getkp : ∀ mask, TableRow.Statement (.getkp mask) := by
  unfold TableRow.Statement
  decide

theorem TableRow.rd1 : TableRow.Statement .rd1 := by unfold TableRow.Statement; decide
theorem TableRow.rd2 : TableRow.Statement .rd2 := by unfold TableRow.Statement; decide
theorem TableRow.rd4 : TableRow.Statement .rd4 := by unfold TableRow.Statement; decide
theorem TableRow.wake : TableRow.Statement .wake := by unfold TableRow.Statement; decide

theorem TableRow.reset : ∀ pins, TableRow.Statement (.reset pins) := by
  unfold TableRow.Statement
  decide

/-- The source form passes the checks of R69 and stands for the instruction. -/
def Source.Statement (i : Instr) : Prop := i.WellFormed ∧ i.source.instr = some i

theorem Source.tick (pins : Sample) : Source.Statement (.tick pins) := by
  have h := pins.isLt
  simp [Source.Statement, Instr.WellFormed, Instr.source, SourceCommand.instr, SourceCommand.wellFormed,
    OpName.operandCount]
  exact h

theorem Source.getkp (mask : Byte) : Source.Statement (.getkp mask) := by
  have h := mask.isLt
  simp [Source.Statement, Instr.WellFormed, Instr.source, SourceCommand.instr, SourceCommand.wellFormed,
    OpName.operandCount]
  exact h

theorem Source.rd1 : Source.Statement .rd1 := by unfold Source.Statement; decide
theorem Source.rd2 : Source.Statement .rd2 := by unfold Source.Statement; decide
theorem Source.rd4 : Source.Statement .rd4 := by unfold Source.Statement; decide
theorem Source.wake : Source.Statement .wake := by unfold Source.Statement; decide

theorem Source.reset (pins : Sample) : Source.Statement (.reset pins) := by
  have h := pins.isLt
  simp [Source.Statement, Instr.WellFormed, Instr.source, SourceCommand.instr, SourceCommand.wellFormed,
    OpName.operandCount]
  exact h

end Sys2Proof.Laws
end

