-- ==== Sys2Proof/Tests/Slice0.lean ====
section
/-! SUPPORT. Small tests, their expected values taken from spec/95_test_vectors.md (L2) and the worked examples of the
instruction rules, and one witness for the hypotheses of every statement that has any. -/

namespace Sys2Proof.Tests

open Sys2Proof.Machine

/-! ### Source checks (R69): one ill-formed term for each -/

theorem test_sample_out_of_range : (SourceCommand.mk .tick (some 16)).wellFormed = false := by decide
theorem test_reset_sample_out_of_range : (SourceCommand.mk .reset (some 16)).wellFormed = false := by decide
theorem test_mask_out_of_range : (SourceCommand.mk .getkp (some 256)).wellFormed = false := by decide
theorem test_operand_not_taken : (SourceCommand.mk .rd2 (some 0)).wellFormed = false := by decide
theorem test_operand_missing : (SourceCommand.mk .getkp none).wellFormed = false := by decide
theorem test_operands_at_their_bounds :
    (SourceCommand.mk .tick (some 15)).wellFormed = true ∧ (SourceCommand.mk .getkp (some 255)).wellFormed = true ∧
    (SourceCommand.mk .wake none).wellFormed = true := by decide

/-! ### Decoding: words written out from R67 and L2.1 -/

theorem test_decode_tick : decode 0b0001_0000_0000_0010#16 = .ok (.tick 0b0010#4) := by rfl
theorem test_decode_getkp : decode 0b0010_0000_1111_1110#16 = .ok (.getkp 0xFE#8) := by rfl
theorem test_decode_rd1 : decode 0b0011_0000_0000_0000#16 = .ok .rd1 := by rfl
theorem test_decode_rd2 : decode 0b0100_0000_0000_0000#16 = .ok .rd2 := by rfl
theorem test_decode_rd4 : decode 0b0101_0000_0000_0000#16 = .ok .rd4 := by rfl
theorem test_decode_wake : decode 0b1110_0000_0000_0000#16 = .ok .wake := by rfl
theorem test_decode_reset : decode 0b1111_0000_0000_1100#16 = .ok (.reset 0b1100#4) := by rfl
theorem test_decode_zero : decode 0x0000#16 = .error .unassignedOp := by rfl
theorem test_decode_ones : decode 0xFFFF#16 = .error .reservedField := by rfl
theorem test_decode_tick_reserved : decode 0x1010#16 = .error .reservedOperand := by rfl
theorem test_decode_wake_operand : decode 0xE001#16 = .error .reservedOperand := by rfl

/-- R42: the low byte comes first. -/
theorem test_bytes_low_first : decodeBytes [0x0F#8, 0x10#8, 0xAA#8] = .ok (.tick 0xF#4, [0xAA#8]) := by rfl
theorem test_half_a_command : decodeBytes [0x00#8] = .error .truncated := by rfl
theorem test_table_word : decodeTableWord 16 0x20FF = some (.getkp 0xFF#8) := by decide

/-- The lines of R70's examples: `TICKS P, R, 0, 0` is 0x1002 and `IDLE 1, 0` is 0x1007. -/
theorem test_line_ticks :
    assembleLine ['T','I','C','K','S',' ','P',',',' ','R',',',' ','0',',',' ','0',' ',';','x'] =
      .ok (some 0x1002#16) := by rfl
theorem test_line_idle : assembleLine ['I','D','L','E',' ','1',',',' ','0'] = .ok (some 0x1007#16) := by rfl
theorem test_line_hex : assembleLine ['G','E','T','K','P',' ','#','0','x','F','F'] = .ok (some 0x20FF#16) := by rfl
theorem test_line_out_of_range : assembleLine ['T','I','C','K',' ','#','1','6'] = .error .badOperand := by rfl

/-! ### One step on a small state -/

/-- A state after RESET, its registers as the test vectors write them, with an operation of `a` being taken. -/
def st (a : Agent) (ks kp ct1 ct0 : Lanes) (el : Phase) (ed : Byte) : State :=
  { State.reset with
    issuer := a, keyState := ks, keyPress := kp, ct1 := ct1, ct0 := ct0, encLast := el, encDelta := ed }

/-- The registers after a step, as the test vectors write them: KS, KP, CT1, CT0, EL, ED. -/
def regs (o : Host.Outcome State Fault Refusal) : Option (Lanes × Lanes × Lanes × Lanes × Phase × Byte) :=
  (nextState? o).map fun t => (t.keyState, t.keyPress, t.ct1, t.ct0, t.encLast, t.encDelta)

/-- The reply of a step. -/
def replyOf (o : Host.Outcome State Fault Refusal) : Option Reply := (nextState? o).map (·.reply)

/-- L2.2 row 14: one lane pending while the other starts. -/
theorem test_tick_two_lanes :
    regs (exec (.tick 0b0001#4) (st .timer 0b01 0b00 0b10 0b01 0 0)) = some (0b01, 0b00, 0b00, 0b10, 0, 0) := by decide
/-- L2.2 row 9 with L2.4 row 1: a release rolls over and keeps the flag; +1 wraps to -128. -/
theorem test_tick_release_and_wrap :
    regs (exec (.tick 0b1011#4) (st .timer 0b01 0b01 0b00 0b00 0 0x7F)) =
      some (0b00, 0b01, 0b11, 0b11, 1, 0x80) := by decide
/-- L2.5: KP = 10 and mask 0xFE. -/
theorem test_getkp :
    regs (exec (.getkp 0xFE#8) (st .consumer 0 0b10 3 3 0 0)) = some (0, 0b00, 3, 3, 0, 0) ∧
    replyOf (exec (.getkp 0xFE#8) (st .consumer 0 0b10 3 3 0 0)) = some (.result .consumer 0x02) := by decide
/-- L2.5: mask 0xFC selects no key. -/
theorem test_getkp_no_key :
    regs (exec (.getkp 0xFC#8) (st .consumer 0 0b11 3 3 0 0)) = some (0, 0b11, 3, 3, 0, 0) := by decide
/-- L2.5, row 0x81. -/
theorem test_rd1 :
    regs (exec .rd1 (st .consumer 0 0 3 3 2 0x81)) = some (0, 0, 3, 3, 2, 0x00) ∧
    replyOf (exec .rd1 (st .consumer 0 0 3 3 2 0x81)) = some (.result .consumer 0x81) := by decide
/-- L2.5, row 0xFD. -/
theorem test_rd2 :
    regs (exec .rd2 (st .consumer 0 0 3 3 2 0xFD)) = some (0, 0, 3, 3, 2, 0x01) ∧
    replyOf (exec .rd2 (st .consumer 0 0 3 3 2 0xFD)) = some (.result .consumer 0xFE) := by decide
/-- L2.5, row 0xFE. -/
theorem test_rd4 :
    regs (exec .rd4 (st .consumer 0 0 3 3 2 0xFE)) = some (0, 0, 3, 3, 2, 0x02) ∧
    replyOf (exec .rd4 (st .consumer 0 0 3 3 2 0xFE)) = some (.result .consumer 0xFF) := by decide
/-- L2.6: 0xF007 gives ENC_LAST = 3. -/
theorem test_reset :
    regs (exec (.reset 0x7#4) (st .platform 0b10 0b01 0b00 0b01 1 0x55)) = some (0, 0, 3, 3, 3, 0) := by decide
theorem test_wake :
    regs (exec .wake (st .platform 0b10 0b01 0b00 0b01 1 0x55)) = some (0b10, 0b01, 0b00, 0b01, 1, 0x55) := by decide

/-- L2.7: a placed word runs as the first command from the launch state. -/
theorem test_first_command :
    regs (step (State.reset.withFetchWord 16 0x1002)) = some (0, 0, 3, 0b10, 0, 0) := by decide
/-- L2.7: an illegal word issued by the wrong agent before RESET faults: decoding comes first. -/
theorem test_illegal_before_reset :
    (nextState? (step { State.powerUp 1 1 1 1 1 5 with pending := [⟨.timer, 0x3001#16⟩] })).map
      (fun t => (t.init, t.fault, t.reply)) = some (false, true, .fault (.illegalCommand 0x3001#16)) := by decide
/-- L2.7: GETKP by the TIMER. -/
theorem test_wrong_agent :
    step { State.reset with pending := [⟨.timer, 0x2001#16⟩] } = .refused (.wrongAgent 0x2001#16 .timer) := by rfl
/-- L2.7: TICK before RESET. -/
theorem test_before_reset :
    step { State.powerUp 1 1 1 1 1 5 with pending := [⟨.timer, 0x1002#16⟩] } =
      .refused (.notInitialised 0x1002#16) := by rfl

/-! ### Witnesses: states and operands that meet each statement's hypotheses -/

theorem witness_StepRunsTheDecodedCommand :
    (load [.tick 0x2#4] State.reset).pending = [⟨.timer, 0x1002#16⟩] ∧ decode 0x1002#16 = .ok (.tick 0x2#4) :=
  ⟨rfl, rfl⟩
theorem witness_IllegalWordSetsFaultOnly :
    ({ State.reset with pending := [⟨.consumer, 0x3001#16⟩] } : State).pending = ⟨.consumer, 0x3001#16⟩ :: [] ∧
    decode 0x3001#16 = .error .reservedOperand := ⟨rfl, rfl⟩
theorem witness_NoCommandNoChange : State.reset.pending = [] := rfl
theorem witness_RefusedUntilReset : ∀ a : Agent, a = .timer ∨ a = .consumer ∨ a = .platform →
    ∃ s : State, s.init = false ∧ s.issuer = a :=
  fun a _ => ⟨{ State.powerUp 0 0 0 0 0 0 with issuer := a }, rfl, rfl⟩
theorem witness_RefusedFromTheWrongAgent :
    (st .consumer 0 0 3 3 0 0).issuer ≠ .timer ∧ (st .timer 0 0 3 3 0 0).issuer ≠ .consumer ∧
    (st .timer 0 0 3 3 0 0).issuer ≠ .platform := by decide
/-- Also of TickResultWhole and of the accepted and ignored clauses of TickQuadratureTable, at both wraps. -/
theorem witness_TickDebounceResult_TickResultWhole :
    (st .timer 0b01 0b00 0b10 0b01 0 0).issuer = .timer ∧ (st .timer 0b01 0b00 0b10 0b01 0 0).init = true := by decide
theorem witness_TickQuadratureTable_up :
    regs (exec (.tick 0xB#4) (st .timer 0 0 3 3 0 0x7F)) = some (0, 0, 3, 3, 1, 0x80) := by decide
theorem witness_TickQuadratureTable_down :
    regs (exec (.tick 0x7#4) (st .timer 0 0 3 3 0 0x80)) = some (0, 0, 3, 3, 3, 0x7F) := by decide
theorem witness_TickQuadratureTable_none :
    regs (exec (.tick 0x3#4) (st .timer 0 0 3 3 2 5)) = some (0, 0, 3, 3, 2, 5) ∧
    regs (exec (.tick 0xF#4) (st .timer 0 0 3 3 2 5)) = some (0, 0, 3, 3, 2, 5) := ⟨by decide, by decide⟩
theorem witness_EvenPhaseDifferenceChangesNothing :
    (∃ t, exec (.tick 0xF#4) (st .timer 0 0 3 3 0 5) = .next t) ∧
    ((0#2).toNat + 4 - (samplePhase 0xF#4).toNat) % 2 = 0 := ⟨⟨_, rfl⟩, by decide⟩
theorem witness_TickFrame_DebounceIsThePerKeyStep_KeyLanesAreIndependent :
    1 < 2 ∧ (0x2#4).getLsbD 0 = (0x0#4).getLsbD 0 ∧
    (∃ t, exec (.tick 0x2#4) (st .timer 0b00 0 0b00 0b00 0 5) = .next t) ∧
    (∃ t, exec (.tick 0x0#4) (st .timer 0b10 0 0b10 0b00 3 7) = .next t) ∧
    (st .timer 0b00 0 0b00 0b00 0 5).keyState.getLsbD 0 = (st .timer 0b10 0 0b10 0b00 3 7).keyState.getLsbD 0 ∧
    (st .timer 0b00 0 0b00 0b00 0 5).keyPress.getLsbD 0 = (st .timer 0b10 0 0b10 0b00 3 7).keyPress.getLsbD 0 ∧
    (st .timer 0b00 0 0b00 0b00 0 5).ct0.getLsbD 0 = (st .timer 0b10 0 0b10 0b00 3 7).ct0.getLsbD 0 ∧
    (st .timer 0b00 0 0b00 0b00 0 5).ct1.getLsbD 0 = (st .timer 0b10 0 0b10 0b00 3 7).ct1.getLsbD 0 :=
  ⟨by decide, by decide, ⟨_, rfl⟩, ⟨_, rfl⟩, by decide, by decide, by decide, by decide⟩
theorem witness_FourthConsecutiveChangedTickFlips :
    State.reset.init = true ∧ pendingCount State.reset 1 = 0 ∧ (List.replicate 4 (0x1#4)).length ≤ 4 ∧
    ∀ p ∈ List.replicate 4 (0x1#4), (!p.getLsbD 1) = !State.reset.keyState.getLsbD 1 := by decide
/-- Three ticks that see key 0 pressed, a release, and three more. -/
theorem witness_ExcursionsBelowFourTicksNeverFlip :
    State.reset.init = true ∧ pendingCount State.reset 0 = 0 ∧
    ∀ four : List Sample, four <:+: [0x2#4, 0x2#4, 0x2#4, 0x3#4, 0x2#4, 0x2#4, 0x2#4] → four.length = 4 →
      ∃ p ∈ four, (!p.getLsbD 0) = State.reset.keyState.getLsbD 0 := by
  refine ⟨rfl, by decide, ?_⟩
  rintro four ⟨pre, post, h⟩ hl
  obtain ⟨a, b, c, d, rfl⟩ : ∃ a b c d, four = [a, b, c, d] := by
    match four, hl with
    | [a, b, c, d], _ => exact ⟨a, b, c, d, rfl⟩
  have hlen := congrArg List.length h
  simp at hlen
  match pre, h with
  | [], h => simp at h; exact ⟨d, by simp, by rw [h.2.2.2.1]; decide⟩
  | [_], h => simp at h; exact ⟨c, by simp, by rw [h.2.2.2.1]; decide⟩
  | [_, _], h => simp at h; exact ⟨b, by simp, by rw [h.2.2.2.1]; decide⟩
  | [_, _, _], h => simp at h; exact ⟨a, by simp, by rw [h.2.2.2.1]; decide⟩
  | _ :: _ :: _ :: _ :: _, _ => simp at hlen; omega
/-- Key 0 is pressed, released for four ticks and pressed again: exactly seven ticks stand between the flips. -/
theorem witness_PressesAreAtLeastEightTicksApart : ∃ s1 s2 s3 : State,
    runAll [.tick 0x2#4] (st .timer 0 0 0 0 0 0) = .next s1 ∧
    runAll ((List.replicate 4 (0x3#4) ++ List.replicate 3 (0x2#4)).map .tick) s1 = .next s2 ∧
    runAll [.tick 0x2#4] s2 = .next s3 ∧
    (st .timer 0 0 0 0 0 0).keyState.getLsbD 0 = false ∧ s1.keyState.getLsbD 0 = true ∧
    s2.keyState.getLsbD 0 = false ∧ s3.keyState.getLsbD 0 = true :=
  ⟨_, _, _, rfl, rfl, rfl, rfl, rfl, rfl, rfl⟩
theorem witness_TickAfterASkipCountsFromTheStalePhase :
    State.reset.init = true ∧ samplePhase 0xF#4 = State.reset.encLast + 2 := by decide
/-- Also of ReadsAccountForEveryCount, ReadsAccountForCountsModulo256 and CommandsAreTakenOnceInOrder. -/
theorem witness_PhaseTracksTheNetCount_ReadsAccount :
    (∃ t, run 2 (load [.tick 0xB#4, .rd1] State.reset) = .next t) ∧
    noReset 2 (load [.tick 0xB#4, .rd1] State.reset) = true ∧
    noWrap 2 (load [.tick 0xB#4, .rd1] State.reset) = true := ⟨⟨_, rfl⟩, rfl, rfl⟩
/-- Of GetkpReturnsAndClearsSelectedFlags, Rd1…, Rd2… and Rd4…. -/
theorem witness_reads_complete : (st .consumer 0 3 3 3 0 5).issuer = .consumer ∧ (st .consumer 0 3 3 3 0 5).init = true := by
  decide
/-- Of GetkpIgnoresHighMaskBits, ReadUnitsAndRemainderEqualTheAccumulator and ReadFrames. -/
theorem witness_reads_next :
    (∃ t, exec (.getkp 0xFE#8) (st .consumer 0 3 3 3 0 5) = .next t) ∧
    (∃ t, exec .rd1 (st .consumer 0 3 3 3 0 5) = .next t) ∧ (∃ t, exec .rd2 (st .consumer 0 3 3 3 0 5) = .next t) ∧
    (∃ t, exec .rd4 (st .consumer 0 3 3 3 0 5) = .next t) := ⟨⟨_, rfl⟩, ⟨_, rfl⟩, ⟨_, rfl⟩, ⟨_, rfl⟩⟩
theorem witness_SecondReadReturnsZero : State.reset.init = true := rfl
theorem witness_PressEventIsNotReturnedTwice :
    (0x01#8).getLsbD 0 = true ∧ ∀ i ∈ [Instr.wake, .rd4], ∀ p, i ≠ .tick p := by
  refine ⟨by decide, ?_⟩
  simp
theorem witness_PressEventIsKeptUntilRead :
    (st .timer 1 1 3 3 0 0).keyPress.getLsbD 0 = true ∧ (st .timer 1 1 3 3 0 0).init = true ∧
    (0x01#8).getLsbD 0 = true ∧
    ∀ i ∈ [Instr.tick 0x3#4, .getkp 0x02#8], (∀ p, i ≠ .reset p) ∧ ∀ m', i = .getkp m' → m'.getLsbD 0 = false := by
  refine ⟨by decide, by decide, by decide, ?_⟩
  simp
theorem witness_UpTo124TicksNeverWrap :
    (st .consumer 0 0 3 3 0 3).init = true ∧ (st .consumer 0 0 3 3 0 3).encDelta ≤ 0x03#8 ∧
    (List.replicate 124 (0x3#4)).length ≤ 124 := by
  refine ⟨rfl, by decide, ?_⟩
  simp
/-- RESET completes before the first RESET as well as after it. -/
theorem witness_ResetResult_WakeResult :
    (State.powerUp 1 1 1 1 1 1).issuer = .platform ∧ (st .platform 0 0 3 3 0 0).issuer = .platform ∧
    (st .platform 0 0 3 3 0 0).init = true := by decide
theorem witness_KeyHeldAtResetIsPressedOnTheFourthTick :
    (List.replicate 4 (0x2#4)).length ≤ 4 ∧ ∀ p ∈ List.replicate 4 (0x2#4), p.getLsbD 0 = false := by decide
theorem witness_WakeNeverMatters : State.reset.init = true := rfl
/-- Of HiddenRegistersHaveOnlyTheirWriters, PressFlags…, EncLast…, EncDelta… and ResultsGoToTheConsumerOnly, with the
reads above: the other instructions answer a next state too. -/
theorem witness_register_rules :
    (∃ t, exec (.tick 0x8#4) (st .timer 0 0 0 0 0 5) = .next t) ∧
    (∃ t, exec (.reset 0xF#4) (st .platform 0 0 0 0 0 5) = .next t) ∧
    (∃ t, exec .wake (st .platform 0 0 0 0 0 5) = .next t) := ⟨⟨_, rfl⟩, ⟨_, rfl⟩, ⟨_, rfl⟩⟩
/-- A step that takes an illegal word and one that runs a RESET, for the FAULT and INIT rules. -/
theorem witness_FaultAndInitRules :
    (∃ t, step { State.reset with pending := [⟨.timer, 0#16⟩] } = .next t ∧ t.fault = true) ∧
    (∃ t, step (load [.reset 0x3#4] (State.powerUp 1 1 1 1 1 1)) = .next t ∧ t.init = true) :=
  ⟨⟨_, rfl, rfl⟩, ⟨_, rfl, rfl⟩⟩
theorem witness_PowerUpValuesNeverMatter :
    (load [.reset 0x3#4] (State.powerUp 0 0 0 0 0 0)).init = false ∧
    (load [.reset 0x3#4] (State.powerUp 3 2 1 1 1 9)).init = false ∧
    (load [.reset 0x3#4] (State.powerUp 0 0 0 0 0 0)).fault = (load [.reset 0x3#4] (State.powerUp 3 2 1 1 1 9)).fault ∧
    (load [.reset 0x3#4] (State.powerUp 0 0 0 0 0 0)).pending =
      (load [.reset 0x3#4] (State.powerUp 3 2 1 1 1 9)).pending ∧
    ∃ t, run 1 (load [.reset 0x3#4] (State.powerUp 0 0 0 0 0 0)) = .next t ∧ t.init = true :=
  ⟨rfl, rfl, rfl, rfl, _, rfl, rfl⟩
theorem witness_WellDriven :
    WellDriven (load [.tick 0x2#4, .rd4, .wake] State.reset) ∧
    ∃ t, step (load [.tick 0x2#4, .rd4, .wake] State.reset) = .next t := ⟨by decide, _, rfl⟩
theorem witness_ResetFirstLaunchesAWellDrivenBlock :
    LaunchedByReset 0x3#4 [⟨.timer, 0x1002#16⟩]
      { State.powerUp 1 2 3 0 1 55 with pending := [⟨.platform, 0xF003#16⟩, ⟨.timer, 0x1002#16⟩] } := by decide

end Sys2Proof.Tests
end

section
/-! PROOFS. What each operation does to the press flags (10_state.md R22), key by key. -/

namespace Sys2Proof.Machine

/-- R86 and R87: whatever keys roll over, the flags set are those of the keys whose state went from 0 to 1. -/
theorem getLsbD_setPressFlags_flipState (keyPress keyState roll : Lanes) (k : Nat) :
    (setPressFlags keyPress (flipState keyState roll) roll).getLsbD k =
      (keyPress.getLsbD k || (!keyState.getLsbD k && (flipState keyState roll).getLsbD k)) := by
  simp only [setPressFlags, flipState, BitVec.getLsbD_or, BitVec.getLsbD_and, BitVec.getLsbD_xor]
  cases keyState.getLsbD k <;> cases roll.getLsbD k <;> rfl

theorem getLsbD_maskLanes (mask : Byte) {k : Nat} (hk : k < 2) :
    (maskLanes mask).getLsbD k = mask.getLsbD k := by
  simp [maskLanes, hk]

theorem getLsbD_selectedFlags (keyPress : Lanes) (mask : Byte) {k : Nat} (hk : k < 2) :
    (selectedFlags keyPress mask).getLsbD k = (keyPress.getLsbD k && mask.getLsbD k) := by
  rw [selectedFlags, BitVec.getLsbD_and, getLsbD_maskLanes mask hk]

theorem getLsbD_clearPressFlags (keyPress : Lanes) (mask : Byte) {k : Nat} (hk : k < 2) :
    (clearPressFlags keyPress mask).getLsbD k = (keyPress.getLsbD k && !mask.getLsbD k) := by
  rw [clearPressFlags, BitVec.getLsbD_and, BitVec.getLsbD_not, getLsbD_maskLanes mask hk]
  simp [hk]

/-- Settles O47: the flag of a key by the effect of each operation; the consumer of GETKP's result is its owner. -/
theorem pressFlagsSetByPressesAndClearedByReads : Obligations.PressFlagsSetByPressesAndClearedByReads := by
  unfold Obligations.PressFlagsSetByPressesAndClearedByReads
  intro i s t h
  obtain ⟨⟨hissuer, _⟩, rfl⟩ := exec_eq_next.mp h
  cases i with
  | tick pins =>
    intro k _
    exact getLsbD_setPressFlags_flipState s.keyPress s.keyState _ k
  | getkp mask =>
    refine ⟨fun k hk => getLsbD_clearPressFlags s.keyPress mask hk,
      (selectedFlags s.keyPress mask).setWidth 8, congrArg (Reply.result · _) hissuer, fun k hk => ?_⟩
    have hk8 : k < 8 := by omega
    rw [BitVec.getLsbD_setWidth, getLsbD_selectedFlags s.keyPress mask hk]
    simp [hk8]
  | rd1 => exact deltaRead_keyPress s 0
  | rd2 => exact deltaRead_keyPress s 1
  | rd4 => exact deltaRead_keyPress s 2
  | wake => exact returnNothing_keyPress s
  | reset pins => exact resetEffect_keyPress s pins

end Sys2Proof.Machine
end

section
/-! PROOFS. Who writes ENC_LAST and who reads it (10_state.md R24). -/

namespace Sys2Proof.Machine

/-- Bit 0 of the 8-bit difference of R102 is the parity of the phase difference. -/
theorem phaseDiff_odd_iff : ∀ last new : Phase,
    (phaseDiff last new).getLsbD 0 = true ↔ (last.toNat + 4 - new.toNat) % 2 = 1 := by
  decide

/-- R103, R104: only an odd phase difference stores the new phase. -/
theorem quadStep_phase (last : Phase) (delta : Byte) (a b : BitVec 1) :
    (quadStep last delta a b).1 =
      if (last.toNat + 4 - (phaseOfLines a b).toNat) % 2 = 1 then phaseOfLines a b else last := by
  simp only [quadStep, phaseDiff_odd_iff]
  split <;> rfl

/-- With another ENC_LAST an effect differs at most in the two encoder registers. -/
theorem effect_of_other_encLast (i : Instr) (s : State) (e : Phase) :
    effect i { s with encLast := e } =
      { effect i s with
        encLast := (effect i { s with encLast := e }).encLast
        encDelta := (effect i { s with encLast := e }).encDelta } := by
  cases i <;> rfl

/-- No effect but TICK's computes ENC_DELTA from ENC_LAST. -/
theorem effect_encDelta_of_other_encLast {i : Instr} (s : State) (e : Phase) (hi : ∀ p, i ≠ .tick p) :
    (effect i { s with encLast := e }).encDelta = (effect i s).encDelta := by
  cases i with
  | tick pins => exact absurd rfl (hi pins)
  | _ => rfl

/-- Settles O48: the writers by the effect of each operation; `Admitted` does not read ENC_LAST, so the same
operation completes with any other. -/
theorem encLastIsTheLastAcceptedPhase : Obligations.EncLastIsTheLastAcceptedPhase := by
  unfold Obligations.EncLastIsTheLastAcceptedPhase
  constructor
  · intro i s t h
    obtain ⟨_, rfl⟩ := exec_eq_next.mp h
    cases i with
    | tick pins => exact quadStep_phase s.encLast s.encDelta (lineA pins) (lineB pins)
    | _ => rfl
  · intro i s t e h
    obtain ⟨hallowed, rfl⟩ := exec_eq_next.mp h
    exact ⟨_, _, exec_eq_next.mpr ⟨hallowed, (effect_of_other_encLast i s e).symm⟩,
      effect_encDelta_of_other_encLast s e⟩

end Sys2Proof.Machine
end

section
/-! PROOFS. The debounce half of TICK (40_tick_debounce.md R81 to R87). -/

namespace Sys2Proof.Machine

/-- After RESET a TICK from its owner is admitted, so it completes with its effect (R80, R161, R180). -/
theorem exec_tick_eq_next (pins : Sample) {s : State} (hissuer : s.issuer = .timer) (hinit : s.init = true) :
    exec (.tick pins) s = .next (tickEffect pins s) :=
  exec_eq_next.mpr ⟨⟨hissuer, .inl hinit⟩, rfl⟩

/-- Settles O15: the four registers of TICK's effect are the expressions of R82 to R87 by the register laws; the
quadrature half writes none of them. -/
theorem tickDebounceResult : Obligations.TickDebounceResult := by
  unfold Obligations.TickDebounceResult
  intro pins s hissuer hinit
  exact ⟨tickEffect pins s, exec_tick_eq_next pins hissuer hinit, tickEffect_ct0 s pins, tickEffect_ct1 s pins,
    tickEffect_keyState s pins, tickEffect_keyPress s pins⟩

end Sys2Proof.Machine
end

section
/-! PROOFS. The quadrature half of TICK (41_tick_quadrature.md R100 to R105). -/

namespace Sys2Proof.Machine

/-- R104: an even phase difference is ignored, whatever the accumulator holds. -/
theorem quadStep_of_even {last : Phase} {a b : BitVec 1}
    (heven : (last.toNat + 4 - (phaseOfLines a b).toNat) % 2 = 0) (delta : Byte) :
    quadStep last delta a b = (last, delta) := by
  have hignored : ¬ (phaseDiff last (phaseOfLines a b)).getLsbD 0 = true := by
    rw [phaseDiff_odd_iff]
    omega
  exact if_neg hignored

/-- Settles O18: TICK's two encoder registers are the components of `quadStep`, which ignores an even difference. -/
theorem evenPhaseDifferenceChangesNothing : Obligations.EvenPhaseDifferenceChangesNothing := by
  unfold Obligations.EvenPhaseDifferenceChangesNothing
  intro pins s t h heven
  obtain ⟨_, rfl⟩ := exec_eq_next.mp h
  have hstep : quadStep s.encLast s.encDelta (lineA pins) (lineB pins) = (s.encLast, s.encDelta) :=
    quadStep_of_even heven s.encDelta
  exact ⟨(tickEffect_encLast s pins).trans (congrArg Prod.fst hstep),
    (tickEffect_encDelta s pins).trans (congrArg Prod.snd hstep)⟩

end Sys2Proof.Machine
end

section
/-! PROOFS. The decoder and the encoder are inverse to each other (30_encoding.md R60 to R68). -/

namespace Sys2Proof

/-! ### The three fields of a word (R60) -/

@[simp] theorem opField_packWord (op : BitVec 4) (imm : Byte) : opField (packWord op imm) = op :=
  (BitVec.extractLsb'_append_eq_of_le (by decide)).trans BitVec.extractLsb'_append_eq_left

@[simp] theorem rsvField_packWord (op : BitVec 4) (imm : Byte) : rsvField (packWord op imm) = 0#4 :=
  (BitVec.extractLsb'_append_eq_of_le (by decide)).trans BitVec.extractLsb'_append_eq_right

@[simp] theorem immField_packWord (op : BitVec 4) (imm : Byte) : immField (packWord op imm) = imm :=
  BitVec.extractLsb'_append_eq_right

/-- R60: a word with `rsv` zero is made of its other two fields. -/
theorem packWord_fields {w : Word} (h : rsvField w = 0#4) : packWord (opField w) (immField w) = w := by
  have hhigh : opField w ++ rsvField w = w.extractLsb' 8 8 :=
    BitVec.extractLsb'_append_extractLsb'_eq_extractLsb' rfl
  have hword : w.extractLsb' 8 8 ++ immField w = w := BitVec.extractLsb'_append_extractLsb'
  rw [packWord, ← h, hhigh, hword]

/-! ### The operand byte (R62 to R65) -/

@[simp] theorem sampleOperand_append (p : Sample) : sampleOperand (0#4 ++ p) = .ok p := by
  have hhigh : (0#4 ++ p).extractLsb' 4 4 = 0#4 := BitVec.extractLsb'_append_eq_left
  have hlow : (0#4 ++ p).extractLsb' 0 4 = p := BitVec.extractLsb'_append_eq_right
  rw [sampleOperand, if_pos hhigh, hlow]

theorem append_of_sampleOperand {imm : Byte} {p : Sample} (h : sampleOperand imm = .ok p) : 0#4 ++ p = imm := by
  unfold sampleOperand at h
  split at h
  next hhigh =>
    cases h
    rw [← hhigh]
    exact BitVec.extractLsb'_append_extractLsb'
  next => cases h

@[simp] theorem noOperand_zero : noOperand 0#8 = .ok () := rfl

theorem zero_of_noOperand {imm : Byte} {u : Unit} (h : noOperand imm = .ok u) : imm = 0#8 := by
  unfold noOperand at h
  split at h
  next hzero => exact hzero
  next => cases h

/-! ### The two directions -/

theorem decode_encode (i : Instr) : decode (encode i) = .ok i := by
  cases i <;> simp [encode, decode, Except.map]

theorem except_map_eq_ok {ε α β : Type} {f : α → β} {x : Except ε α} {b : β} :
    x.map f = .ok b ↔ ∃ a, x = .ok a ∧ f a = b := by
  cases x <;> simp [Except.map]

/-- R66: the fields of a decoded word are those the encoder packs. -/
theorem encode_of_decode {w : Word} {i : Instr} (h : decode w = .ok i) : encode i = w := by
  unfold decode at h
  split at h
  next hrsv =>
    rw [← packWord_fields hrsv]
    have hop {op : BitVec 4} (hn : (opField w).toNat = op.toNat) : opField w = op := BitVec.eq_of_toNat_eq hn
    split at h
    next hn =>
      obtain ⟨p, hp, rfl⟩ := except_map_eq_ok.mp h
      rw [encode, append_of_sampleOperand hp, hop (op := 0x1#4) hn]
    next hn =>
      cases h
      rw [encode, hop (op := 0x2#4) hn]
    next hn =>
      obtain ⟨u, hu, rfl⟩ := except_map_eq_ok.mp h
      rw [encode, zero_of_noOperand hu, hop (op := 0x3#4) hn]
    next hn =>
      obtain ⟨u, hu, rfl⟩ := except_map_eq_ok.mp h
      rw [encode, zero_of_noOperand hu, hop (op := 0x4#4) hn]
    next hn =>
      obtain ⟨u, hu, rfl⟩ := except_map_eq_ok.mp h
      rw [encode, zero_of_noOperand hu, hop (op := 0x5#4) hn]
    next hn =>
      obtain ⟨u, hu, rfl⟩ := except_map_eq_ok.mp h
      rw [encode, zero_of_noOperand hu, hop (op := 0xE#4) hn]
    next hn =>
      obtain ⟨p, hp, rfl⟩ := except_map_eq_ok.mp h
      rw [encode, append_of_sampleOperand hp, hop (op := 0xF#4) hn]
    next => cases h
  next => cases h

/-- R66, R67: an instruction is decoded from its own word and from no other. -/
theorem decode_eq_ok_iff {w : Word} {i : Instr} : decode w = .ok i ↔ w = encode i := by
  constructor
  · intro h
    exact (encode_of_decode h).symm
  · rintro rfl
    exact decode_encode i

theorem wordOfBytes_extractLsb' (w : Word) : wordOfBytes (w.extractLsb' 0 8) (w.extractLsb' 8 8) = w :=
  BitVec.extractLsb'_append_extractLsb'

theorem decodeBytes_encodeBytes_append (i : Instr) (rest : List Byte) :
    decodeBytes (encodeBytes i ++ rest) = .ok (i, rest) := by
  simp [encodeBytes, decodeBytes, wordOfBytes_extractLsb', decode_encode]

/-- Settles O1: the word by `decode_encode`, the bytes because they are the halves of the word. -/
theorem encodeThenDecodeGivesTheCommandBack : Obligations.EncodeThenDecodeGivesTheCommandBack := by
  unfold Obligations.EncodeThenDecodeGivesTheCommandBack
  exact fun i => ⟨decode_encode i, decodeBytes_encodeBytes_append i⟩

/-! ### The words with an operand as the tables write them (R61, R67, R69) -/

theorem encode_tick : ∀ p : Sample, encode (.tick p) = 0x1000#16 ||| p.setWidth 16 := by decide
theorem encode_getkp : ∀ m : Byte, encode (.getkp m) = 0x2000#16 ||| m.setWidth 16 := by decide
theorem encode_reset : ∀ p : Sample, encode (.reset p) = 0xF000#16 ||| p.setWidth 16 := by decide

/-- Settles O2: `decode_eq_ok_iff`, with the word of each operation as the table writes it. -/
theorem decodeMapIsExact : Obligations.DecodeMapIsExact := by
  unfold Obligations.DecodeMapIsExact
  intro w
  refine ⟨fun p => ?_, fun m => ?_, decode_eq_ok_iff, decode_eq_ok_iff, decode_eq_ok_iff, decode_eq_ok_iff,
    fun p => ?_⟩
  · rw [← encode_tick]
    exact decode_eq_ok_iff
  · rw [← encode_getkp]
    exact decode_eq_ok_iff
  · rw [← encode_reset]
    exact decode_eq_ok_iff

end Sys2Proof
end

section
/-! PROOFS. The list of legal words (30_encoding.md R67). -/

namespace Sys2Proof

/-- A row of R67 with an operand: the words of the operation `base` with every operand below `n`. -/
theorem pairwise_lt_row {base n : Nat} (h : base + n ≤ 2 ^ 16) :
    ((List.range n).map fun k => BitVec.ofNat 16 (base + k)).Pairwise (· < ·) := by
  rw [List.pairwise_map]
  refine List.pairwise_lt_range.imp_of_mem fun {j k} _ hk hjk => ?_
  rw [List.mem_range] at hk
  rw [BitVec.lt_def, BitVec.toNat_ofNat, BitVec.toNat_ofNat]
  omega

/-- R67 lists the words in ascending order. -/
theorem legalWords_sorted : legalWords.Pairwise (· < ·) := by
  have htick := pairwise_lt_row (base := 0x1000) (n := 16) (by decide)
  have hgetkp := pairwise_lt_row (base := 0x2000) (n := 256) (by decide)
  have hreset := pairwise_lt_row (base := 0xF000) (n := 16) (by decide)
  have hfixed : [0x3000#16, 0x4000#16, 0x5000#16, 0xE000#16].Pairwise (· < ·) := by decide
  simp only [legalWords, List.pairwise_append, List.mem_append, List.mem_map, List.mem_range, List.mem_cons,
    List.not_mem_nil, or_false]
  refine ⟨⟨⟨htick, hgetkp, ?_⟩, hfixed, ?_⟩, hreset, ?_⟩
  · rintro _ ⟨j, hj, rfl⟩ _ ⟨k, hk, rfl⟩
    bv_omega
  · rintro _ (⟨j, hj, rfl⟩ | ⟨j, hj, rfl⟩) _ (rfl | rfl | rfl | rfl) <;> bv_omega
  · rintro _ ((⟨j, hj, rfl⟩ | ⟨j, hj, rfl⟩) | rfl | rfl | rfl | rfl) _ ⟨k, hk, rfl⟩ <;> bv_omega

/-- The operand of a row as a number: the same word. -/
theorem encode_tick_ofNat : ∀ p : Sample, encode (.tick p) = BitVec.ofNat 16 (0x1000 + p.toNat) := by decide
theorem encode_getkp_ofNat : ∀ m : Byte, encode (.getkp m) = BitVec.ofNat 16 (0x2000 + m.toNat) := by decide
theorem encode_reset_ofNat : ∀ p : Sample, encode (.reset p) = BitVec.ofNat 16 (0xF000 + p.toNat) := by decide

theorem mem_legalWords_iff {w : Word} : w ∈ legalWords ↔ ∃ i, w = encode i := by
  simp only [legalWords, List.mem_append, List.mem_map, List.mem_range, List.mem_cons, List.not_mem_nil, or_false]
  constructor
  · rintro (((⟨n, hn, rfl⟩ | ⟨n, hn, rfl⟩) | rfl | rfl | rfl | rfl) | ⟨n, hn, rfl⟩)
    · exact ⟨.tick (BitVec.ofNat 4 n), by rw [encode_tick_ofNat, BitVec.toNat_ofNat, Nat.mod_eq_of_lt hn]⟩
    · exact ⟨.getkp (BitVec.ofNat 8 n), by rw [encode_getkp_ofNat, BitVec.toNat_ofNat, Nat.mod_eq_of_lt hn]⟩
    · exact ⟨.rd1, rfl⟩
    · exact ⟨.rd2, rfl⟩
    · exact ⟨.rd4, rfl⟩
    · exact ⟨.wake, rfl⟩
    · exact ⟨.reset (BitVec.ofNat 4 n), by rw [encode_reset_ofNat, BitVec.toNat_ofNat, Nat.mod_eq_of_lt hn]⟩
  · rintro ⟨i, rfl⟩
    cases i with
    | tick p => exact .inl (.inl (.inl ⟨p.toNat, p.isLt, (encode_tick_ofNat p).symm⟩))
    | getkp m => exact .inl (.inl (.inr ⟨m.toNat, m.isLt, (encode_getkp_ofNat m).symm⟩))
    | rd1 => exact .inl (.inr (.inl rfl))
    | rd2 => exact .inl (.inr (.inr (.inl rfl)))
    | rd4 => exact .inl (.inr (.inr (.inr (.inl rfl))))
    | wake => exact .inl (.inr (.inr (.inr (.inr rfl))))
    | reset p => exact .inr ⟨p.toNat, p.isLt, (encode_reset_ofNat p).symm⟩

/-- Settles O4: the list is strictly ascending, so no word stands twice, and its words are the encoded ones, which
are the legal ones by `decode_eq_ok_iff`. -/
theorem legalWordsAreTheListed292 : Obligations.LegalWordsAreTheListed292 := by
  unfold Obligations.LegalWordsAreTheListed292
  refine ⟨?_, legalWords_sorted.imp BitVec.ne_of_lt, fun w => ?_⟩
  · simp only [legalWords, List.length_append, List.length_map, List.length_range, List.length_cons, List.length_nil]
  · simp only [decode_eq_ok_iff, mem_legalWords_iff]

end Sys2Proof
end

section
/-! PROOFS. Illegal words by cause (30_encoding.md R64 to R66). -/

namespace Sys2Proof

theorem decode_of_rsv {w : Word} (h : rsvField w ≠ 0#4) : decode w = .error .reservedField := if_neg h

theorem except_map_eq_error {ε α β : Type} {f : α → β} {x : Except ε α} {e : ε} :
    x.map f = .error e ↔ x = .error e := by
  cases x <;> simp [Except.map]

theorem sampleOperand_eq_error {imm : Byte} {e : Illegal} :
    sampleOperand imm = .error e ↔ e = .reservedOperand ∧ imm.extractLsb' 4 4 ≠ 0#4 := by
  unfold sampleOperand
  split
  next h => simp [h]
  next h => simp [h, eq_comm (a := e)]

theorem noOperand_eq_error {imm : Byte} {e : Illegal} :
    noOperand imm = .error e ↔ e = .reservedOperand ∧ imm ≠ 0#8 := by
  unfold noOperand
  split
  next h => simp [h]
  next h => simp [h, eq_comm (a := e)]

/-- The operations R61 leaves out. -/
abbrev UnassignedOp (op : BitVec 4) : Prop := op = 0x0#4 ∨ (0x6#4 ≤ op ∧ op ≤ 0xD#4)

/-- An operation whose operand is a pin sample (R62). -/
abbrev SampleOp (op : BitVec 4) : Prop := op = 0x1#4 ∨ op = 0xF#4

/-- An operation without an operand (R64). -/
abbrev NoOperandOp (op : BitVec 4) : Prop := op = 0x3#4 ∨ op = 0x4#4 ∨ op = 0x5#4 ∨ op = 0xE#4

theorem unassignedOp_of_ne : ∀ op : BitVec 4,
    op.toNat ≠ 0x1 → op.toNat ≠ 0x2 → op.toNat ≠ 0x3 → op.toNat ≠ 0x4 → op.toNat ≠ 0x5 → op.toNat ≠ 0xE →
    op.toNat ≠ 0xF → UnassignedOp op ∧ ¬ SampleOp op ∧ ¬ NoOperandOp op := by
  decide

theorem decode_eq_error_iff_of_rsv_zero {w : Word} (hrsv : rsvField w = 0#4) {e : Illegal} :
    decode w = .error e ↔
      (e = .unassignedOp ∧ UnassignedOp (opField w)) ∨
      (e = .reservedOperand ∧
        ((SampleOp (opField w) ∧ (immField w).extractLsb' 4 4 ≠ 0#4) ∨
         (NoOperandOp (opField w) ∧ immField w ≠ 0#8))) := by
  have hop {op : BitVec 4} (hn : (opField w).toNat = op.toNat) : opField w = op := BitVec.eq_of_toNat_eq hn
  rw [decode, if_pos hrsv]
  split
  next hn =>
    rw [hop (op := 0x1#4) hn]
    simp [UnassignedOp, SampleOp, NoOperandOp, except_map_eq_error, sampleOperand_eq_error]
  next hn =>
    rw [hop (op := 0x2#4) hn]
    simp [UnassignedOp, SampleOp, NoOperandOp]
  next hn =>
    rw [hop (op := 0x3#4) hn]
    simp [UnassignedOp, SampleOp, NoOperandOp, except_map_eq_error, noOperand_eq_error]
  next hn =>
    rw [hop (op := 0x4#4) hn]
    simp [UnassignedOp, SampleOp, NoOperandOp, except_map_eq_error, noOperand_eq_error]
  next hn =>
    rw [hop (op := 0x5#4) hn]
    simp [UnassignedOp, SampleOp, NoOperandOp, except_map_eq_error, noOperand_eq_error]
  next hn =>
    rw [hop (op := 0xE#4) hn]
    simp [UnassignedOp, SampleOp, NoOperandOp, except_map_eq_error, noOperand_eq_error]
  next hn =>
    rw [hop (op := 0xF#4) hn]
    simp [UnassignedOp, SampleOp, NoOperandOp, except_map_eq_error, sampleOperand_eq_error]
  next h1 h2 h3 h4 h5 hE hF =>
    obtain ⟨hun, hs, hno⟩ := unassignedOp_of_ne (opField w) h1 h2 h3 h4 h5 hE hF
    simp [hun, hs, hno, eq_comm]

theorem decode_eq_reservedField_iff {w : Word} : decode w = .error .reservedField ↔ rsvField w ≠ 0#4 := by
  by_cases hrsv : rsvField w = 0#4
  · simp [decode_eq_error_iff_of_rsv_zero hrsv, hrsv]
  · simp [decode_of_rsv hrsv, hrsv]

theorem decode_eq_unassignedOp_iff {w : Word} :
    decode w = .error .unassignedOp ↔ rsvField w = 0#4 ∧ UnassignedOp (opField w) := by
  by_cases hrsv : rsvField w = 0#4
  · simp [decode_eq_error_iff_of_rsv_zero hrsv, hrsv]
  · simp [decode_of_rsv hrsv, hrsv]

theorem decode_eq_reservedOperand_iff {w : Word} :
    decode w = .error .reservedOperand ↔ rsvField w = 0#4 ∧
      ((SampleOp (opField w) ∧ (immField w).extractLsb' 4 4 ≠ 0#4) ∨
       (NoOperandOp (opField w) ∧ immField w ≠ 0#8)) := by
  by_cases hrsv : rsvField w = 0#4
  · simp [decode_eq_error_iff_of_rsv_zero hrsv, hrsv]
  · simp [decode_of_rsv hrsv, hrsv]

/-- Settles O3: the three causes field by field; bits 7:4 of the word are bits 7:4 of its operand byte. -/
theorem illegalWordsByCause : Obligations.IllegalWordsByCause := by
  unfold Obligations.IllegalWordsByCause
  intro w
  have himm : (immField w).extractLsb' 4 4 = w.extractLsb' 4 4 := by
    ext k hk
    simp [immField]
  refine ⟨decode_eq_reservedField_iff, decode_eq_unassignedOp_iff, ?_⟩
  rw [← himm]
  exact decode_eq_reservedOperand_iff

end Sys2Proof
end

section
/-! PROOFS. Source commands and pseudo-instructions (30_encoding.md R69, R70). -/

namespace Sys2Proof

/-- R69: a written number is accepted exactly below the operation's operand count. -/
theorem wellFormed_of_operandCount {op : OpName} {c : Nat} (h : op.operandCount = some c) (n : Nat) :
    (SourceCommand.mk op (some n)).wellFormed = decide (n < c) := by
  simp [SourceCommand.wellFormed, h]

theorem assemble_of_not_wellFormed {c : SourceCommand} (h : c.wellFormed = false) : c.assemble = none := by
  simp [SourceCommand.assemble, SourceCommand.instr, h]

/-- The words of an operation with an operand are those of its operands in range. -/
theorem assemble_number {op : OpName} {c : Nat} (hcount : op.operandCount = some c) {base : Word}
    (hword : ∀ n < c, (SourceCommand.mk op (some n)).instr.map encode = some (base ||| BitVec.ofNat 16 n)) (n : Nat) :
    (SourceCommand.mk op (some n)).assemble = if n < c then some (base ||| BitVec.ofNat 16 n) else none := by
  split
  next hn => exact hword n hn
  next hn => exact assemble_of_not_wellFormed (by simpa [wellFormed_of_operandCount hcount] using hn)

theorem assemble_tick (n : Nat) : (SourceCommand.mk .tick (some n)).assemble =
    if n < 16 then some (0x1000#16 ||| BitVec.ofNat 16 n) else none := by
  refine assemble_number (op := .tick) rfl (fun n hn => ?_) n
  simp [SourceCommand.instr, wellFormed_of_operandCount (op := .tick) rfl, hn, encode_tick,
    BitVec.setWidth_ofNat_of_le_of_lt (show 4 ≤ 16 by decide) hn]

theorem assemble_getkp (n : Nat) : (SourceCommand.mk .getkp (some n)).assemble =
    if n < 256 then some (0x2000#16 ||| BitVec.ofNat 16 n) else none := by
  refine assemble_number (op := .getkp) rfl (fun n hn => ?_) n
  simp [SourceCommand.instr, wellFormed_of_operandCount (op := .getkp) rfl, hn, encode_getkp,
    BitVec.setWidth_ofNat_of_le_of_lt (show 8 ≤ 16 by decide) hn]

theorem assemble_reset (n : Nat) : (SourceCommand.mk .reset (some n)).assemble =
    if n < 16 then some (0xF000#16 ||| BitVec.ofNat 16 n) else none := by
  refine assemble_number (op := .reset) rfl (fun n hn => ?_) n
  simp [SourceCommand.instr, wellFormed_of_operandCount (op := .reset) rfl, hn, encode_reset,
    BitVec.setWidth_ofNat_of_le_of_lt (show 4 ≤ 16 by decide) hn]

/-- Settles O6: the three operations with an operand by `assemble_tick`, `assemble_getkp` and `assemble_reset`; a
superfluous or a missing operand fails the check of R69. -/
theorem sourceOperandsOutOfRangeGiveNoWord : Obligations.SourceOperandsOutOfRangeGiveNoWord := by
  unfold Obligations.SourceOperandsOutOfRangeGiveNoWord
  refine ⟨assemble_tick, assemble_getkp, assemble_reset, rfl, rfl, rfl, rfl, fun n op hop => ?_, by decide⟩
  simp only [List.mem_cons, List.not_mem_nil, or_false] at hop
  rcases hop with rfl | rfl | rfl | rfl <;> rfl

end Sys2Proof

namespace Sys2Proof.Machine

theorem releasedBit_eq (k : KeyLevel) : releasedBit k = (decide (k = .R)).toNat := by cases k <;> rfl

theorem releasedBit_lt (k : KeyLevel) : releasedBit k < 2 := by cases k <;> decide

/-- R70: key levels and line levels of one bit make a sample that is in range. -/
theorem sampleNumber_lt (k0 k1 : KeyLevel) (a b : Bool) : sampleNumber k0 k1 a.toNat b.toNat < 16 := by
  have h0 := releasedBit_lt k0
  have h1 := releasedBit_lt k1
  have ha := a.toNat_lt
  have hb := b.toNat_lt
  unfold sampleNumber
  omega

theorem expand_ticks (k0 k1 : KeyLevel) (a b : Bool) :
    expand (.ticks k0 k1 a.toNat b.toNat) = some ⟨.tick, some (sampleNumber k0 k1 a.toNat b.toNat)⟩ :=
  if_pos ⟨a.toNat_lt, b.toNat_lt⟩

theorem expand_resets (a b : Bool) :
    expand (.resets a.toNat b.toNat) = some ⟨.reset, some (sampleNumber .R .R a.toNat b.toNat)⟩ :=
  if_pos ⟨a.toNat_lt, b.toNat_lt⟩

/-- Settles O7: each pseudo-instruction stands for a source command with its operand in range. -/
theorem pseudoInstructionsExpandAsListed : Obligations.PseudoInstructionsExpandAsListed := by
  unfold Obligations.PseudoInstructionsExpandAsListed
  refine ⟨fun k0 k1 a b => ?_, fun a b => ⟨rfl, ?_⟩, rfl, rfl, rfl⟩
  · have hword := assemble_tick (sampleNumber k0 k1 a.toNat b.toNat)
    rw [if_pos (sampleNumber_lt k0 k1 a b)] at hword
    rw [assembleStatement, expand_ticks, Option.bind_some, hword, sampleNumber, releasedBit_eq, releasedBit_eq]
    · rintro w ⟨⟩
  · have hword := assemble_reset (sampleNumber .R .R a.toNat b.toNat)
    rw [if_pos (sampleNumber_lt .R .R a b)] at hword
    rw [assembleStatement, expand_resets, Option.bind_some, hword]
    · rfl
    · rintro w ⟨⟩

/-- Settles O5: the decoder run on each word. -/
theorem writtenOutWordsDecode : Obligations.WrittenOutWordsDecode := by
  unfold Obligations.WrittenOutWordsDecode
  exact ⟨rfl, rfl, rfl, rfl, rfl, rfl, rfl, rfl, rfl, rfl⟩

end Sys2Proof.Machine
end

section
/-! PROOFS. Who may issue a command and when (60_exceptions.md R161, R163; 70_reset_and_hazards.md R180). -/

namespace Sys2Proof.Machine

theorem exists_exec_eq_next_iff {i : Instr} {s : State} : (∃ t, exec i s = .next t) ↔ Admitted i s := by
  simp [exec_eq_next]

theorem exec_ne_fault (i : Instr) (s : State) (f : Fault) : exec i s ≠ .fault f := by
  rw [exec_eq_perform]
  exact perform_ne_fault _ _ _ f

theorem needsInit_eq_false_iff {i : Instr} : needsInit i = false ↔ ∃ p, i = .reset p := by
  cases i <;> simp [needsInit]

/-- Settles O14: an operation completes exactly when it is admitted. -/
theorem completesExactlyForItsOwnerAfterReset : Obligations.CompletesExactlyForItsOwnerAfterReset := by
  unfold Obligations.CompletesExactlyForItsOwnerAfterReset
  intro i s
  refine ⟨?_, exec_ne_fault i s⟩
  rw [exists_exec_eq_next_iff, Admitted, needsInit_eq_false_iff]
  cases i <;> exact Iff.rfl

theorem exec_notInitialised {i : Instr} {s : State} (hissuer : s.issuer = owner i) (hinit : s.init = false)
    (hneeds : needsInit i = true) : exec i s = .refused (.notInitialised (encode i)) := by
  rw [exec_eq_perform, perform_notInitialised _ hissuer hinit hneeds]

theorem exec_wrongAgent {i : Instr} {s : State} (hissuer : s.issuer ≠ owner i) :
    exec i s = .refused (.wrongAgent (encode i) s.issuer) := by
  rw [exec_eq_perform, perform_wrongAgent _ hissuer]

/-- Settles O12: each is refused with its own word, as the table writes it. -/
theorem refusedUntilReset : Obligations.RefusedUntilReset := by
  unfold Obligations.RefusedUntilReset
  intro s hinit
  refine ⟨fun ha p => ?_,
    fun ha => ⟨fun m => ?_, exec_notInitialised ha hinit rfl, exec_notInitialised ha hinit rfl,
      exec_notInitialised ha hinit rfl⟩,
    fun ha => exec_notInitialised ha hinit rfl⟩
  · rw [← encode_tick]
    exact exec_notInitialised ha hinit rfl
  · rw [← encode_getkp]
    exact exec_notInitialised ha hinit rfl

/-- Settles O13: each is refused with its own word, as the table writes it; INIT is not read. -/
theorem refusedFromTheWrongAgent : Obligations.RefusedFromTheWrongAgent := by
  unfold Obligations.RefusedFromTheWrongAgent
  intro s
  refine ⟨fun ha p => ?_, fun ha => ⟨fun m => ?_, exec_wrongAgent ha, exec_wrongAgent ha, exec_wrongAgent ha⟩,
    fun ha => ⟨exec_wrongAgent ha, fun p => ?_⟩⟩
  · rw [← encode_tick]
    exact exec_wrongAgent ha
  · rw [← encode_getkp]
    exact exec_wrongAgent ha
  · rw [← encode_reset]
    exact exec_wrongAgent ha

end Sys2Proof.Machine
end

section
/-! PROOFS. What one step takes and what it does to INIT and FAULT (10_state.md R26, R27; 20_memory.md R48). -/

namespace Sys2Proof.Machine

/-- Settles O8. -/
theorem stepRunsTheDecodedCommand : Obligations.StepRunsTheDecodedCommand := by
  unfold Obligations.StepRunsTheDecodedCommand
  exact fun s r rest i hpending hdecode => step_of_legal hpending hdecode

/-- A legal word is presented by its owner. -/
theorem presentingAgent_encode (i : Instr) : presentingAgent (encode i) = owner i := by
  simp [presentingAgent, decode_encode]

theorem withFetchWord_encode (s : State) (i : Instr) :
    s.withFetchWord 16 (encode i).toNat = { s with pending := ownRequest i :: s.pending } := by
  have hword : BitVec.ofNat 16 ((encode i).toNat % 2 ^ 16) = encode i := by
    rw [Nat.mod_eq_of_lt (encode i).isLt, BitVec.ofNat_toNat, BitVec.setWidth_eq]
  simp only [State.withFetchWord, hword, presentingAgent_encode, ownRequest]

/-- Settles O9: the placed word decodes to its instruction, and taking it restores the pending requests. -/
theorem placedWordIsTheNextCommand : Obligations.PlacedWordIsTheNextCommand := by
  unfold Obligations.PlacedWordIsTheNextCommand
  intro s i
  rw [withFetchWord_encode, step_of_legal (r := ownRequest i) rfl (decode_encode i)]
  rfl

/-- Settles O10. -/
theorem illegalWordSetsFaultOnly : Obligations.IllegalWordSetsFaultOnly := by
  unfold Obligations.IllegalWordSetsFaultOnly
  exact fun s a w rest e hpending hdecode => step_of_illegal hpending hdecode

/-- Settles O11. -/
theorem noCommandNoChange : Obligations.NoCommandNoChange := by
  unfold Obligations.NoCommandNoChange
  exact fun s hpending => step_of_nil hpending

/-- Settles O51: the three ways a step completes; only the fault taken writes FAULT. -/
theorem faultIsStickyAndSetByIllegalWordsOnly : Obligations.FaultIsStickyAndSetByIllegalWordsOnly := by
  unfold Obligations.FaultIsStickyAndSetByIllegalWordsOnly
  refine fun s => ⟨step_ne_fault s, fun t h => ?_⟩
  obtain ⟨hp, rfl⟩ | ⟨r, rest, i, hp, hd, -, rfl⟩ | ⟨r, rest, e, hp, hd, rfl⟩ := step_cases h
  · simp [hp]
  · simp [effect_fault, hp, hd]
  · simp [hp, hd]

/-- Settles O52: the three ways a step completes; of the admitted operations only RESET writes INIT. -/
theorem initIsSetByResetOnly : Obligations.InitIsSetByResetOnly := by
  unfold Obligations.InitIsSetByResetOnly
  intro s t h
  obtain ⟨hp, rfl⟩ | ⟨r, rest, i, hp, hd, -, rfl⟩ | ⟨r, rest, e, hp, hd, rfl⟩ := step_cases h
  · simp [hp]
  · simp [effect_init, hp, hd, needsInit_eq_false_iff]
  · simp [hp, hd]

/-- R45, R48: a step takes the first pending request, whole, and no other. -/
theorem step_pending {s t : State} (h : step s = .next t) : t.pending = s.pending.drop 1 := by
  obtain ⟨hp, rfl⟩ | ⟨r, rest, i, hp, -, -, rfl⟩ | ⟨r, rest, e, hp, -, rfl⟩ := step_cases h
  · rw [hp, List.drop_nil]
  · rw [effect_pending, acceptRequest_pending, hp, List.drop_one, List.tail_cons]
  · rw [takeFault_pending, acceptRequest_pending, hp, List.drop_one, List.tail_cons]

/-- Settles O53: by induction on the number of steps. -/
theorem commandsAreTakenOnceInOrder : Obligations.CommandsAreTakenOnceInOrder := by
  unfold Obligations.CommandsAreTakenOnceInOrder
  intro n
  induction n with
  | zero =>
    rintro s t ⟨⟩
    rfl
  | succ n ih =>
    intro s t h
    obtain ⟨u, hu, ht⟩ := run_succ_cases h
    rw [ih u t ht, step_pending hu, List.drop_drop, Nat.add_comm]

end Sys2Proof.Machine
end

section
/-! PROOFS. Before the first RESET the unspecified registers are never read (10_state.md R36;
70_reset_and_hazards.md R180). -/

namespace Sys2Proof.Machine

/-- RESET writes every register but FAULT, and the model's reply, from its sample alone. -/
theorem resetEffect_congr (pins : Sample) {s s' : State} (hfault : s.fault = s'.fault)
    (hpending : s.pending = s'.pending) (hissuer : s.issuer = s'.issuer) :
    resetEffect pins s = resetEffect pins s' := by
  simp [resetEffect, returnNothing, hfault, hpending, hissuer]

/-- Settles O54: by induction on the steps, of two runs at a time. Until a RESET completes, a step either idles or
takes an illegal word, which keeps FAULT and the pending requests equal; RESET makes the states equal. -/
theorem powerUpValuesNeverMatter : Obligations.PowerUpValuesNeverMatter := by
  unfold Obligations.PowerUpValuesNeverMatter
  intro n
  induction n with
  | zero =>
    rintro s s' t hinit - - - ⟨⟩ ht
    exact absurd ht (by simp [hinit])
  | succ n ih =>
    intro s s' t hinit hinit' hfault hpending h ht
    obtain ⟨u, hu, hrun⟩ := run_succ_cases h
    obtain ⟨hp, rfl⟩ | ⟨r, rest, i, hp, hd, hadm, rfl⟩ | ⟨r, rest, e, hp, hd, rfl⟩ := step_cases hu
    · rw [run_succ_of_next n (step_of_nil (hpending ▸ hp))]
      exact ih u s' t hinit hinit' hfault hpending hrun ht
    · have hneeds : needsInit i = false := hadm.2.resolve_left (by simp [hinit])
      obtain ⟨p, rfl⟩ := needsInit_eq_false_iff.mp hneeds
      have hstep' : step s' = .next (resetEffect p (acceptRequest r rest s')) := by
        rw [step_of_legal (hpending ▸ hp) hd]
        exact exec_eq_next.mpr ⟨⟨hadm.1, .inr hneeds⟩, rfl⟩
      have heq : resetEffect p (acceptRequest r rest s) = resetEffect p (acceptRequest r rest s') :=
        resetEffect_congr p hfault rfl rfl
      rw [run_succ_of_next n hstep', ← heq]
      exact hrun
    · rw [run_succ_of_next n (step_of_illegal (hpending ▸ hp) hd)]
      exact ih (takeFault (.illegalCommand r.word) (acceptRequest r rest s)) _ t hinit hinit' rfl rfl hrun ht

end Sys2Proof.Machine
end

section
/-! PROOFS. Well-driven blocks (60_exceptions.md R161; 70_reset_and_hazards.md R180). -/

namespace Sys2Proof.Machine

theorem wellIssued_iff {r : Request} : wellIssued r = true ↔ ∃ i, decode r.word = .ok i ∧ r.agent = owner i := by
  unfold wellIssued
  split
  next i hd => simp [hd]
  next e hd => simp [hd]

theorem wellIssued_ownRequest (i : Instr) : wellIssued (ownRequest i) = true :=
  wellIssued_iff.mpr ⟨i, decode_encode i, rfl⟩

/-- The next command of a well-driven block runs, and leaves it well driven. -/
theorem wellDriven_step {s : State} (h : WellDriven s) : ∃ t, step s = .next t ∧ WellDriven t := by
  obtain ⟨hinit, hfault, hall⟩ := h
  cases hp : s.pending with
  | nil => exact ⟨s, step_of_nil hp, hinit, hfault, hall⟩
  | cons r rest =>
    rw [hp, List.all_cons, Bool.and_eq_true] at hall
    obtain ⟨i, hd, hagent⟩ := wellIssued_iff.mp hall.1
    refine ⟨effect i (acceptRequest r rest s), ?_, ?_, ?_, ?_⟩
    · rw [step_of_legal hp hd]
      exact exec_eq_next.mpr ⟨⟨hagent, .inl hinit⟩, rfl⟩
    · rw [effect_init, acceptRequest_init, hinit, Bool.true_or]
    · rw [effect_fault, acceptRequest_fault, hfault]
    · rw [effect_pending, acceptRequest_pending]
      exact hall.2

/-- Settles O55: a step has one outcome, and that of a well-driven state is well driven. -/
theorem wellDrivenIsKeptByEveryStep : Obligations.WellDrivenIsKeptByEveryStep := by
  unfold Obligations.WellDrivenIsKeptByEveryStep
  intro s t hs h
  obtain ⟨u, hu, hwell⟩ := wellDriven_step hs
  rw [h] at hu
  cases hu
  exact hwell

/-- Settles O56: by induction on the steps; a well-driven state has FAULT 0, so it is a good final state. -/
theorem wellDrivenRunsNeverStop : Obligations.WellDrivenRunsNeverStop := by
  unfold Obligations.WellDrivenRunsNeverStop
  intro n
  induction n with
  | zero =>
    intro s hs
    obtain ⟨-, hfault, -⟩ := id hs
    exact ⟨s, rfl, hs, by rw [goodFinal, hfault, Bool.not_false]⟩
  | succ n ih =>
    intro s hs
    obtain ⟨u, hu, hwell⟩ := wellDriven_step hs
    rw [run_succ_of_next n hu]
    exact ih u hwell

/-- Settles O57: every command that `load` puts in the pending sequence is issued by its owner. -/
theorem launchStateIsWellDriven : Obligations.LaunchStateIsWellDriven := by
  unfold Obligations.LaunchStateIsWellDriven
  refine ⟨⟨rfl, rfl, rfl⟩, fun is => ⟨rfl, rfl, ?_⟩⟩
  rw [load_pending, List.all_map, List.all_eq_true]
  exact fun i _ => wellIssued_ownRequest i

/-- Settles O58: RESET needs no earlier one, sets INIT and leaves FAULT. -/
theorem resetFirstLaunchesAWellDrivenBlock : Obligations.ResetFirstLaunchesAWellDrivenBlock := by
  unfold Obligations.ResetFirstLaunchesAWellDrivenBlock
  rintro pins rest s ⟨-, hfault, hp, hall⟩
  refine ⟨resetEffect pins (acceptRequest (ownRequest (.reset pins)) rest s), ?_, ⟨rfl, hfault, hall⟩, rfl, rfl⟩
  rw [step_of_legal hp (decode_encode _)]
  exact exec_eq_next.mpr ⟨⟨rfl, .inr rfl⟩, rfl⟩

end Sys2Proof.Machine
end

section
/-! PROOFS. Runs of commands, each issued by its owner, as compositions of effects (10_state.md R31, R34). -/

namespace Sys2Proof.Machine

/-- What an instruction leaves when its owner issues it and it is admitted. -/
def issue (i : Instr) (s : State) : State := effect i { s with issuer := owner i }

/-- What a sequence of admitted commands leaves. -/
def issueAll : List Instr → State → State
  | [], s => s
  | i :: is, s => issueAll is (issue i s)

@[simp] theorem issueAll_nil (s : State) : issueAll [] s = s := rfl

@[simp] theorem issueAll_cons (i : Instr) (is : List Instr) (s : State) :
    issueAll (i :: is) s = issueAll is (issue i s) := rfl

theorem issueAll_append (is js : List Instr) (s : State) : issueAll (is ++ js) s = issueAll js (issueAll is s) := by
  induction is generalizing s with
  | nil => rfl
  | cons i is ih => exact ih (issue i s)

/-- A property every command of a sequence keeps holds after the sequence. -/
theorem issueAll_induction {P : State → Prop} {is : List Instr} {s : State}
    (hissue : ∀ i ∈ is, ∀ u, P u → P (issue i u)) (hs : P s) : P (issueAll is s) := by
  induction is generalizing s with
  | nil => exact hs
  | cons i is ih =>
    exact ih (fun j hj => hissue j (List.mem_cons_of_mem i hj)) (hissue i List.mem_cons_self s hs)

theorem issue_init {s : State} (i : Instr) (hinit : s.init = true) : (issue i s).init = true := by
  simp [issue, effect_init, hinit]

/-- A loaded command is the next one, and nothing but its admission depends on where it stands. -/
theorem effect_head_of_load (i : Instr) (is : List Instr) (s : State) :
    effect i (acceptRequest (ownRequest i) (is.map ownRequest) (load (i :: is) s)) = load is (issue i s) := by
  cases i <;> rfl

theorem step_load_eq_next {i : Instr} {is : List Instr} {s t : State} :
    step (load (i :: is) s) = .next t ↔ (s.init = true ∨ needsInit i = false) ∧ t = load is (issue i s) := by
  rw [step_of_legal (r := ownRequest i) rfl (decode_encode i), exec_eq_next, effect_head_of_load]
  exact and_congr_left fun _ => and_iff_right rfl

theorem step_load {i : Instr} (is : List Instr) {s : State} (h : s.init = true ∨ needsInit i = false) :
    step (load (i :: is) s) = .next (load is (issue i s)) :=
  step_load_eq_next.mpr ⟨h, rfl⟩

theorem runAll_cons {i : Instr} (is : List Instr) {s : State} (h : s.init = true ∨ needsInit i = false) :
    runAll (i :: is) s = runAll is (issue i s) :=
  run_succ_of_next is.length (step_load is h)

/-- After RESET every sequence of commands completes. -/
theorem runAll_of_init {s : State} (is : List Instr) (hinit : s.init = true) :
    runAll is s = .next (load [] (issueAll is s)) := by
  induction is generalizing s with
  | nil => rfl
  | cons i is ih =>
    rw [runAll_cons is (.inl hinit)]
    exact ih (issue_init i hinit)

/-- A sequence that begins with RESET completes from any state. -/
theorem runAll_reset (pins : Sample) (is : List Instr) (s : State) :
    runAll (.reset pins :: is) s = .next (load [] (issueAll (.reset pins :: is) s)) := by
  rw [runAll_cons is (.inr rfl)]
  exact runAll_of_init is rfl

theorem eq_of_runAll {is : List Instr} {s t : State} (h : runAll is s = .next t) : t = load [] (issueAll is s) := by
  induction is generalizing s with
  | nil =>
    cases h
    rfl
  | cons i is ih =>
    obtain ⟨u, hu, ht⟩ := run_succ_cases h
    obtain ⟨-, rfl⟩ := step_load_eq_next.mp hu
    exact ih ht

end Sys2Proof.Machine
end

section
/-! PROOFS. TICK key by key (40_tick_debounce.md R81 to R91). -/

namespace Sys2Proof.Machine

/-- The four bits of a key: its counter's low and high bit, its state and its flag. -/
abbrev KeyBits := Bool × Bool × Bool × Bool

def keyBits (s : State) (k : Nat) : KeyBits :=
  (s.ct0.getLsbD k, s.ct1.getLsbD k, s.keyState.getLsbD k, s.keyPress.getLsbD k)

/-- R82 to R87 on one key with the given raw level. -/
def tickBits (raw : Bool) : KeyBits → KeyBits
  | (c0, c1, state, press) =>
    let changed := raw ^^ state
    let c0' := !(c0 && changed)
    let c1' := c0' ^^ (c1 && changed)
    let roll := changed && c0' && c1'
    (c0', c1', state ^^ roll, press || ((state ^^ roll) && roll))

/-- R91: TICK's bitwise step takes each key's bits and its line, and nothing of the other key. -/
theorem keyBits_tickEffect (pins : Sample) (s : State) {k : Nat} (hk : k < 2) :
    keyBits (tickEffect pins s) k = tickBits (!pins.getLsbD k) (keyBits s k) := by
  simp [keyBits, tickBits, setPressFlags, flipState, rollover, nextCt1, nextCt0, changedKeys, rawLevels, keyLines, hk]

/-- Settles O21: the bits of a key after TICK are a function of its bits and its line before. -/
theorem keyLanesAreIndependent : Obligations.KeyLanesAreIndependent := by
  unfold Obligations.KeyLanesAreIndependent
  intro pins pins' s s' t t' k hk hline hstate hpress hct0 hct1 h h'
  obtain ⟨-, rfl⟩ := exec_eq_next.mp h
  obtain ⟨-, rfl⟩ := exec_eq_next.mp h'
  have hbits : keyBits (tickEffect pins s) k = keyBits (tickEffect pins' s') k := by
    rw [keyBits_tickEffect pins s hk, keyBits_tickEffect pins' s' hk, keyBits, keyBits, hline, hstate, hpress, hct0,
      hct1]
  simp only [keyBits, Prod.mk.injEq] at hbits
  obtain ⟨h0, h1, hst, hpr⟩ := hbits
  exact ⟨hst, hpr, h0, h1⟩

/-- The pending count, the state and the flag of a key, as R90 speaks of them. -/
abbrev KeyLane := Nat × Bool × Bool

def keyLane (s : State) (k : Nat) : KeyLane := (pendingCount s k, s.keyState.getLsbD k, s.keyPress.getLsbD k)

/-- R23 and R90 on the bits of a key. -/
def laneOfBits : KeyBits → KeyLane
  | (c0, c1, state, press) => (3 - (2 * c1.toNat + c0.toNat), state, press)

theorem laneOfBits_keyBits (s : State) (k : Nat) : laneOfBits (keyBits s k) = keyLane s k := rfl

/-- One tick of R90 on a key's lane. -/
def laneStep (lane : KeyLane) (raw : Bool) : KeyLane := keyStep lane.1 lane.2.1 lane.2.2 raw

/-- R89: the bitwise step of one key is the step of R90. -/
theorem laneOfBits_tickBits : ∀ (raw c0 c1 state press : Bool),
    laneOfBits (tickBits raw (c0, c1, state, press)) = laneStep (laneOfBits (c0, c1, state, press)) raw := by
  decide

theorem keyLane_tickEffect (pins : Sample) (s : State) {k : Nat} (hk : k < 2) :
    keyLane (tickEffect pins s) k = laneStep (keyLane s k) (!pins.getLsbD k) := by
  rw [← laneOfBits_keyBits, keyBits_tickEffect pins s hk]
  exact laneOfBits_tickBits _ _ _ _ _

/-- Settles O20. -/
theorem debounceIsThePerKeyStep : Obligations.DebounceIsThePerKeyStep := by
  unfold Obligations.DebounceIsThePerKeyStep
  intro pins s t k hk h
  obtain ⟨-, rfl⟩ := exec_eq_next.mp h
  exact keyLane_tickEffect pins s hk

/-! ### Runs of ticks on one key (R92) -/

/-- The raw levels of a key in a run of samples. -/
def rawRun (k : Nat) (ps : List Sample) : List Bool := ps.map fun p => !p.getLsbD k

theorem keyLane_issue_tick (p : Sample) (s : State) {k : Nat} (hk : k < 2) :
    keyLane (issue (.tick p) s) k = laneStep (keyLane s k) (!p.getLsbD k) :=
  keyLane_tickEffect p { s with issuer := .timer } hk

theorem keyLane_ticks (ps : List Sample) (s : State) {k : Nat} (hk : k < 2) :
    keyLane (issueAll (ps.map .tick) s) k = (rawRun k ps).foldl laneStep (keyLane s k) := by
  induction ps generalizing s with
  | nil => rfl
  | cons p ps ih =>
    rw [List.map_cons, issueAll_cons, ih, keyLane_issue_tick p s hk]
    rfl

/-- A run of ticks after RESET completes, with each key's lane stepped by its raw levels. -/
theorem exists_runAll_ticks {s : State} (ps : List Sample) (hinit : s.init = true) {k : Nat} (hk : k < 2) :
    ∃ t, runAll (ps.map .tick) s = .next t ∧ keyLane t k = (rawRun k ps).foldl laneStep (keyLane s k) :=
  ⟨_, runAll_of_init _ hinit, keyLane_ticks ps s hk⟩

theorem keyStep_same (n : Nat) (state press : Bool) : keyStep n state press state = (0, state, press) := if_pos rfl

theorem keyStep_changed (n : Nat) (state press : Bool) :
    keyStep n state press (!state) = if n < 3 then (n + 1, state, press) else (0, !state, press || !state) :=
  if_neg (by simp)

/-- R92 items 1 and 3: changed ticks count up, and the fourth flips the key. -/
theorem foldl_laneStep_changed {state : Bool} (press : Bool) :
    ∀ (raws : List Bool) (n : Nat), n < 4 → n + raws.length ≤ 4 → (∀ raw ∈ raws, raw = !state) →
      raws.foldl laneStep (n, state, press) =
        if n + raws.length < 4 then (n + raws.length, state, press) else (0, !state, press || !state)
  | [], n, hn, _, _ => (if_pos hn).symm
  | raw :: raws, n, hn, hlen, hraws => by
    obtain rfl := hraws _ List.mem_cons_self
    rw [List.length_cons] at hlen ⊢
    rw [List.foldl_cons, laneStep, keyStep_changed]
    by_cases h3 : n < 3
    · rw [if_pos h3, foldl_laneStep_changed press raws (n + 1) (by omega) (by omega)
        fun raw hraw => hraws raw (List.mem_cons_of_mem _ hraw), Nat.add_right_comm, Nat.add_assoc]
    · have hnil : raws = [] := List.eq_nil_of_length_eq_zero (by omega)
      subst hnil
      rw [if_neg h3, if_neg (by simp; omega)]
      rfl

/-- Settles O22: the key's lane after the run, by `foldl_laneStep_changed` from count 0. -/
theorem fourthConsecutiveChangedTickFlips : Obligations.FourthConsecutiveChangedTickFlips := by
  unfold Obligations.FourthConsecutiveChangedTickFlips
  intro k s ps hk hinit hrest hlen hps
  have hraws : ∀ raw ∈ rawRun k ps, raw = !s.keyState.getLsbD k := by
    rintro _ hraw
    obtain ⟨p, hp, rfl⟩ := List.mem_map.mp hraw
    exact hps p hp
  have hcount : (rawRun k ps).length = ps.length := List.length_map _
  obtain ⟨t, ht, hlane⟩ := exists_runAll_ticks ps hinit hk
  refine ⟨t, ht, ?_⟩
  rw [keyLane, keyLane, hrest, foldl_laneStep_changed _ _ 0 (by decide) (by omega) hraws, hcount, Nat.zero_add] at hlane
  split at hlane
  next h4 =>
    simp only [Prod.mk.injEq] at hlane
    obtain ⟨hn, hst, hpr⟩ := hlane
    have hne : ps.length ≠ 4 := by omega
    simp [hn, hst, hpr, hne, Nat.mod_eq_of_lt h4]
  next h4 =>
    simp only [Prod.mk.injEq] at hlane
    obtain ⟨hn, hst, hpr⟩ := hlane
    have heq : ps.length = 4 := by omega
    simp [hn, hst, hpr, heq]

/-- R92 item 2: while no four consecutive raw levels all differ from the state, a count `n` of changed ticks just
before changes nothing but the count. -/
theorem foldl_laneStep_excursions {state : Bool} (press : Bool) :
    ∀ (raws : List Bool) (n : Nat), n < 4 →
      (∀ four, four <:+: List.replicate n (!state) ++ raws → four.length = 4 → state ∈ four) →
      ∃ m, raws.foldl laneStep (n, state, press) = (m, state, press)
  | [], n, _, _ => ⟨n, rfl⟩
  | raw :: raws, n, hn, hfour => by
    rw [List.foldl_cons, laneStep]
    rcases Bool.eq_or_eq_not raw state with rfl | rfl
    · rw [keyStep_same]
      refine foldl_laneStep_excursions press raws 0 (by decide) fun four hin => hfour four ?_
      exact hin.trans ((List.suffix_cons _ _).trans (List.suffix_append _ _)).isInfix
    · have happend : List.replicate n (!state) ++ (!state) :: raws = List.replicate (n + 1) (!state) ++ raws := by
        rw [List.replicate_succ', List.append_assoc, List.singleton_append]
      rw [happend] at hfour
      have h3 : n < 3 := by
        by_contra h3
        obtain rfl : n = 3 := by omega
        have hmem := hfour (List.replicate 4 (!state)) (List.prefix_append _ _).isInfix rfl
        cases state <;> simp at hmem
      rw [keyStep_changed, if_pos h3]
      exact foldl_laneStep_excursions press raws (n + 1) (by omega) hfour

/-- Settles O23: the key starts at rest, so no changed tick stands before the run. -/
theorem excursionsBelowFourTicksNeverFlip : Obligations.ExcursionsBelowFourTicksNeverFlip := by
  unfold Obligations.ExcursionsBelowFourTicksNeverFlip
  intro k s ps hk hinit hrest hfour
  have hraws : ∀ four, four <:+: List.replicate 0 (!s.keyState.getLsbD k) ++ rawRun k ps → four.length = 4 →
      s.keyState.getLsbD k ∈ four := by
    intro four hin hlen
    obtain ⟨samples, hsamples, rfl⟩ := List.infix_map_iff.mp hin
    obtain ⟨p, hp, hsame⟩ := hfour samples hsamples (by simpa using hlen)
    exact List.mem_map.mpr ⟨p, hp, hsame⟩
  obtain ⟨m, hm⟩ := foldl_laneStep_excursions (s.keyPress.getLsbD k) (rawRun k ps) 0 (by decide) hraws
  obtain ⟨t, ht, hlane⟩ := exists_runAll_ticks ps hinit hk
  rw [keyLane, keyLane, hrest, hm] at hlane
  simp only [Prod.mk.injEq] at hlane
  exact ⟨t, ht, hlane.2⟩

/-- How many ticks, at the least, complete a key's next flip to pressed: four changed ticks for each flip still to come,
less those counted already. -/
def ticksToPress : KeyLane → Nat
  | (n, true, _) => 8 - n
  | (n, false, _) => 4 - n

theorem ticksToPress_laneStep (lane : KeyLane) (raw : Bool) :
    ticksToPress lane ≤ ticksToPress (laneStep lane raw) + 1 := by
  obtain ⟨n, state, press⟩ := lane
  rcases Bool.eq_or_eq_not raw state with rfl | rfl
  · rw [laneStep, keyStep_same]
    cases raw <;> simp only [ticksToPress] <;> omega
  · rw [laneStep, keyStep_changed]
    split <;> cases state <;> simp only [ticksToPress, Bool.not_true, Bool.not_false] <;> omega

theorem ticksToPress_foldl (raws : List Bool) (lane : KeyLane) :
    ticksToPress lane ≤ ticksToPress (raws.foldl laneStep lane) + raws.length := by
  induction raws generalizing lane with
  | nil => exact Nat.le_refl _
  | cons raw raws ih =>
    have hstep := ticksToPress_laneStep lane raw
    have hrest := ih (laneStep lane raw)
    rw [List.foldl_cons, List.length_cons]
    omega

/-- A tick that flips a key to pressed is the fourth changed one, and starts the count again. -/
theorem laneStep_press {lane : KeyLane} {raw : Bool} (hold : lane.2.1 = false) (hnew : (laneStep lane raw).2.1 = true) :
    3 ≤ lane.1 ∧ (laneStep lane raw).1 = 0 := by
  obtain ⟨n, state, press⟩ := lane
  obtain rfl : state = false := hold
  cases raw with
  | false => simp [laneStep, keyStep] at hnew
  | true =>
    by_cases h3 : n < 3
    · simp [laneStep, keyStep, h3] at hnew
    · simp [laneStep, keyStep, h3]
      omega

theorem ticksToPress_before_press {lane : KeyLane} {raw : Bool} (hold : lane.2.1 = false)
    (hnew : (laneStep lane raw).2.1 = true) : ticksToPress lane ≤ 1 := by
  obtain ⟨hn, -⟩ := laneStep_press hold hnew
  obtain ⟨n, state, press⟩ := lane
  obtain rfl : state = false := hold
  simp only [ticksToPress] at hn ⊢
  omega

theorem ticksToPress_after_press {lane : KeyLane} {raw : Bool} (hold : lane.2.1 = false)
    (hnew : (laneStep lane raw).2.1 = true) : ticksToPress (laneStep lane raw) = 8 := by
  obtain ⟨-, hn⟩ := laneStep_press hold hnew
  generalize laneStep lane raw = after at hnew hn ⊢
  obtain ⟨n, state, press⟩ := after
  obtain rfl : state = true := hnew
  obtain rfl : n = 0 := hn
  rfl

theorem keyLane_of_runAll_ticks {ps : List Sample} {s t : State} {k : Nat} (hk : k < 2)
    (h : runAll (ps.map .tick) s = .next t) : keyLane t k = (rawRun k ps).foldl laneStep (keyLane s k) := by
  obtain rfl := eq_of_runAll h
  exact keyLane_ticks ps s hk

/-- Settles O24: a press leaves `ticksToPress` at 8, the next one needs it at 1 or less, and each tick takes at most 1
off. -/
theorem pressesAreAtLeastEightTicksApart : Obligations.PressesAreAtLeastEightTicksApart := by
  unfold Obligations.PressesAreAtLeastEightTicksApart
  intro k p q ps s s1 s2 s3 hk h1 h2 h3 hs hs1 hs2 hs3
  have hlane1 : keyLane s1 k = laneStep (keyLane s k) (!p.getLsbD k) := keyLane_of_runAll_ticks (ps := [p]) hk h1
  have hlane2 := keyLane_of_runAll_ticks hk h2
  have hlane3 : keyLane s3 k = laneStep (keyLane s2 k) (!q.getLsbD k) := keyLane_of_runAll_ticks (ps := [q]) hk h3
  have hafter : ticksToPress (keyLane s1 k) = 8 :=
    hlane1 ▸ ticksToPress_after_press (lane := keyLane s k) hs (hlane1 ▸ hs1)
  have hbefore : ticksToPress (keyLane s2 k) ≤ 1 :=
    ticksToPress_before_press (lane := keyLane s2 k) (raw := !q.getLsbD k) hs2 (hlane3 ▸ hs3)
  have hbetween := ticksToPress_foldl (rawRun k ps) (keyLane s1 k)
  rw [← hlane2, rawRun, List.length_map] at hbetween
  omega

/-- R36: RESET leaves every key at rest, released and without a press. -/
theorem keyLane_issue_reset (pins : Sample) (s : State) {k : Nat} (hk : k < 2) :
    keyLane (issue (.reset pins) s) k = (0, false, false) := by
  have hones : (0b11#2).getLsbD k = true := by interval_cases k <;> rfl
  simp [keyLane, pendingCount, issue, effect, hones]

/-- Settles O44: RESET leaves the key at rest and released, so the run of pressed ticks is that of O22. -/
theorem keyHeldAtResetIsPressedOnTheFourthTick : Obligations.KeyHeldAtResetIsPressedOnTheFourthTick := by
  unfold Obligations.KeyHeldAtResetIsPressedOnTheFourthTick
  intro k p0 ps s hk hlen hps
  have hlane := keyLane_issue_reset p0 s hk
  simp only [keyLane, Prod.mk.injEq] at hlane
  obtain ⟨hrest, hreleased, hnopress⟩ := hlane
  have hheld : ∀ p ∈ ps, (!p.getLsbD k) = !(issue (.reset p0) s).keyState.getLsbD k := by
    intro p hp
    rw [hps p hp, hreleased]
  obtain ⟨t, ht, hst, hpr, -⟩ :=
    fourthConsecutiveChangedTickFlips k (issue (.reset p0) s) ps hk rfl hrest hlen hheld
  rw [runAll_cons _ (.inr rfl)]
  refine ⟨t, ht, ?_, ?_⟩
  · simp [hst, hreleased]
  · simp [hpr, hreleased, hnopress]

/-! ### The whole of TICK -/

/-- Settles O19: the frame of TICK, register by register. -/
theorem tickFrame : Obligations.TickFrame := by
  unfold Obligations.TickFrame
  intro pins s t h
  obtain ⟨-, rfl⟩ := exec_eq_next.mp h
  exact ⟨tickEffect_fault s pins, tickEffect_init s pins, tickEffect_pending s pins, tickEffect_issuer s pins,
    tickEffect_reply s pins⟩

end Sys2Proof.Machine
end

section
/-! PROOFS. The quadrature half of TICK by raw counts (41_tick_quadrature.md R100 to R109). -/

namespace Sys2Proof.Machine

/-- R103, R104: the two results of the quadrature step under one condition each. -/
theorem quadStep_eq_pair (last : Phase) (delta : Byte) (a b : BitVec 1) :
    quadStep last delta a b =
      (if (phaseDiff last (phaseOfLines a b)).getLsbD 0 then phaseOfLines a b else last,
        if (phaseDiff last (phaseOfLines a b)).getLsbD 0 then delta + countStep (phaseDiff last (phaseOfLines a b))
        else delta) := by
  simp only [quadStep]
  split <;> rfl

/-- R102 to R106: an accepted difference moves the phase and counts by `rawCount`; an ignored one has raw count 0. -/
theorem phaseDiff_rawCount : ∀ last new : Phase,
    if (phaseDiff last new).getLsbD 0 then
      new = last + BitVec.ofInt 2 (rawCount last new) ∧
        countStep (phaseDiff last new) = BitVec.ofInt 8 (rawCount last new)
    else rawCount last new = 0 := by
  decide

/-- The quadrature step, phase and accumulator alike, adds the raw count of R106. -/
theorem quadStep_eq_add_rawCount (last : Phase) (delta : Byte) (a b : BitVec 1) :
    quadStep last delta a b =
      (last + BitVec.ofInt 2 (rawCount last (phaseOfLines a b)),
        delta + BitVec.ofInt 8 (rawCount last (phaseOfLines a b))) := by
  have hcount := phaseDiff_rawCount last (phaseOfLines a b)
  rw [quadStep_eq_pair]
  split at hcount
  next hodd =>
    obtain ⟨hphase, hstep⟩ := hcount
    rw [if_pos hodd, if_pos hodd, hstep, ← hphase]
  next heven =>
    rw [if_neg heven, if_neg heven, hcount]
    exact Prod.ext (BitVec.add_zero _).symm (BitVec.add_zero _).symm

theorem tickEffect_encLast_eq_add (pins : Sample) (s : State) :
    (tickEffect pins s).encLast = s.encLast + BitVec.ofInt 2 (rawCount s.encLast (samplePhase pins)) :=
  congrArg Prod.fst (quadStep_eq_add_rawCount s.encLast s.encDelta (lineA pins) (lineB pins))

theorem tickEffect_encDelta_eq_add (pins : Sample) (s : State) :
    (tickEffect pins s).encDelta = s.encDelta + BitVec.ofInt 8 (rawCount s.encLast (samplePhase pins)) :=
  congrArg Prod.snd (quadStep_eq_add_rawCount s.encLast s.encDelta (lineA pins) (lineB pins))

theorem encLast_issue_tick (pins : Sample) (s : State) :
    (issue (.tick pins) s).encLast = s.encLast + BitVec.ofInt 2 (rawCount s.encLast (samplePhase pins)) :=
  tickEffect_encLast_eq_add pins _

theorem encDelta_issue_tick (pins : Sample) (s : State) :
    (issue (.tick pins) s).encDelta = s.encDelta + BitVec.ofInt 8 (rawCount s.encLast (samplePhase pins)) :=
  tickEffect_encDelta_eq_add pins _

theorem rawCount_range (last new : Phase) : -1 ≤ rawCount last new ∧ rawCount last new ≤ 1 := by
  unfold rawCount
  split
  · decide
  · split <;> decide

theorem rawCount_up : ∀ last : Phase, rawCount last (last + 1) = 1 := by decide
theorem rawCount_down : ∀ last : Phase, rawCount last (last - 1) = -1 := by decide
theorem rawCount_same : ∀ last : Phase, rawCount last last = 0 := by decide
theorem rawCount_opposite : ∀ last : Phase, rawCount last (last + 2) = 0 := by decide

/-- A raw count of -1 subtracts 1, in either encoder register. -/
theorem add_ofInt_neg_one {w : Nat} (x : BitVec w) : x + BitVec.ofInt w (-1) = x - 1 := by
  rw [BitVec.ofInt_neg, BitVec.sub_eq_add_neg]
  rfl

/-- R105: the accumulator wraps modulo 2^8. -/
theorem sint8_add_ofInt (delta : Byte) (c : Int) : sint8 (delta + BitVec.ofInt 8 c) = (sint8 delta + c).bmod 256 := by
  simp [sint8, BitVec.toInt_add]

theorem sint8_range (v : Byte) : -128 ≤ sint8 v ∧ sint8 v ≤ 127 := by
  have hlow := BitVec.le_toInt v
  have hhigh := BitVec.toInt_lt (x := v)
  unfold sint8
  omega

theorem bmod_256_of_range {x : Int} (hlow : -128 ≤ x) (hhigh : x ≤ 127) : x.bmod 256 = x :=
  Int.bmod_eq_of_le (by omega) (by omega)

/-- A count up at +127 goes to -128 (R105). -/
theorem sint8_add_one (delta : Byte) :
    sint8 (delta + BitVec.ofInt 8 1) = if delta = 0x7F#8 then -128 else sint8 delta + 1 := by
  split
  next h => rw [h]; decide
  next h =>
    have hne : sint8 delta ≠ 127 := fun hmax => h (BitVec.eq_of_toInt_eq hmax)
    have hrange := sint8_range delta
    rw [sint8_add_ofInt, bmod_256_of_range (by omega) (by omega)]

/-- A count down at -128 goes to +127 (R105). -/
theorem sint8_sub_one (delta : Byte) :
    sint8 (delta + BitVec.ofInt 8 (-1)) = if delta = 0x80#8 then 127 else sint8 delta - 1 := by
  split
  next h => rw [h]; decide
  next h =>
    have hne : sint8 delta ≠ -128 := fun hmin => h (BitVec.eq_of_toInt_eq hmin)
    have hrange := sint8_range delta
    rw [sint8_add_ofInt, bmod_256_of_range (by omega) (by omega)]
    rfl

/-- Settles O17: the four directions by their raw counts, +1, -1 and twice 0. -/
theorem tickQuadratureTable : Obligations.TickQuadratureTable := by
  unfold Obligations.TickQuadratureTable
  intro pins s hissuer hinit phase
  have hphase : samplePhase pins = phase := by
    clear hissuer hinit s
    revert pins
    decide
  have hlast := tickEffect_encLast_eq_add pins s
  have hdelta := tickEffect_encDelta_eq_add pins s
  rw [hphase] at hlast hdelta
  refine ⟨_, exec_tick_eq_next pins hissuer hinit, fun hup => ?_, fun hdown => ?_, fun hnone => ?_⟩
  · rw [hlast, hdelta, hup, rawCount_up]
    exact ⟨rfl, sint8_add_one s.encDelta⟩
  · rw [hlast, hdelta, hdown, rawCount_down]
    exact ⟨add_ofInt_neg_one s.encLast, sint8_sub_one s.encDelta⟩
  · have hzero : rawCount s.encLast phase = 0 := by
      rcases hnone with h | h
      · rw [h, rawCount_same]
      · rw [h, rawCount_opposite]
    rw [hlast, hdelta, hzero]
    exact ⟨BitVec.add_zero _, BitVec.add_zero _⟩

/-- Settles O16: TICK's effect written out. -/
theorem tickResultWhole : Obligations.TickResultWhole := by
  unfold Obligations.TickResultWhole
  intro pins s hissuer hinit
  rw [exec_tick_eq_next pins hissuer hinit, tickEffect, quadrature, quadStep_eq_pair]
  rfl

/-- Settles O25: the skipped tick has raw count 0, so the next one meets the same phase and accumulator. -/
theorem tickAfterASkipCountsFromTheStalePhase : Obligations.TickAfterASkipCountsFromTheStalePhase := by
  unfold Obligations.TickAfterASkipCountsFromTheStalePhase
  intro p q s hinit hskip
  have hlast : (issue (.tick p) s).encLast = s.encLast := by
    rw [encLast_issue_tick, hskip, rawCount_opposite]
    exact BitVec.add_zero _
  have hdelta : (issue (.tick p) s).encDelta = s.encDelta := by
    rw [encDelta_issue_tick, hskip, rawCount_opposite]
    exact BitVec.add_zero _
  refine ⟨_, _, runAll_of_init _ hinit, runAll_of_init _ hinit, ?_, ?_⟩
  · simp only [load_encLast, issueAll_cons, issueAll_nil, encLast_issue_tick q, hlast]
  · simp only [load_encDelta, issueAll_cons, issueAll_nil, encDelta_issue_tick q, hlast, hdelta]

/-! ### Inverted encoder lines (R109) -/

theorem samplePhase_invertLines : ∀ pins : Sample, samplePhase (invertLines pins) = samplePhase pins + 2 := by decide

theorem keyLines_invertLines : ∀ pins : Sample, keyLines (invertLines pins) = keyLines pins := by decide

/-- Only the difference of the phases counts. -/
theorem rawCount_shifted : ∀ last new : Phase, rawCount (last + 2) (new + 2) = rawCount last new := by decide

/-- The state two phases on. -/
def shiftPhase (s : State) : State := { s with encLast := s.encLast + 2 }

theorem debounce_invertLines (pins : Sample) (s : State) : debounce (invertLines pins) s = debounce pins s := by
  simp only [debounce, rawLevels, keyLines_invertLines]

theorem quadrature_invertLines (pins : Sample) (s : State) :
    quadrature (invertLines pins) (shiftPhase s) = shiftPhase (quadrature pins s) := by
  have hphase := samplePhase_invertLines pins
  simp only [samplePhase] at hphase
  simp only [quadrature, quadStep_eq_add_rawCount, shiftPhase, hphase, rawCount_shifted, add_right_comm]

theorem issue_tick_invertLines (pins : Sample) (s : State) :
    issue (.tick (invertLines pins)) (shiftPhase s) = shiftPhase (issue (.tick pins) s) := by
  let u : State := { s with issuer := .timer }
  have hquad := quadrature_invertLines pins (debounce pins u)
  calc issue (.tick (invertLines pins)) (shiftPhase s)
    _ = returnNothing (quadrature (invertLines pins) (debounce (invertLines pins) (shiftPhase u))) := rfl
    _ = returnNothing (quadrature (invertLines pins) (shiftPhase (debounce pins u))) := by
      rw [debounce_invertLines]
      rfl
    _ = returnNothing (shiftPhase (quadrature pins (debounce pins u))) := by rw [hquad]
    _ = shiftPhase (issue (.tick pins) s) := rfl

theorem issue_reset_invertLines (pins : Sample) (s : State) :
    issue (.reset (invertLines pins)) s = shiftPhase (issue (.reset pins) s) := by
  simp only [issue, effect, resetEffect, samplePhase_invertLines, shiftPhase, returnNothing, owner]

theorem issueAll_ticks_invertLines (ps : List Sample) (s : State) :
    issueAll (ps.map fun p => .tick (invertLines p)) (shiftPhase s) = shiftPhase (issueAll (ps.map .tick) s) := by
  induction ps generalizing s with
  | nil => rfl
  | cons p ps ih =>
    rw [List.map_cons, List.map_cons, issueAll_cons, issueAll_cons, issue_tick_invertLines]
    exact ih _

/-- Settles O27: RESET samples the phase two on, and every tick keeps the two runs two phases apart. -/
theorem invertedLinesCountAlike : Obligations.InvertedLinesCountAlike := by
  unfold Obligations.InvertedLinesCountAlike
  intro p0 ps s
  refine ⟨_, runAll_reset p0 _ s, ?_⟩
  rw [runAll_reset, issueAll_cons, issue_reset_invertLines, issueAll_ticks_invertLines]
  rfl

end Sys2Proof.Machine
end

section
/-! PROOFS. What a read returns and keeps of the accumulator (42_consumer_reads.md R121 to R125). -/

namespace Sys2Proof.Machine

/-- The arithmetic shift is the floor of the division (decision D9). -/
theorem sint8_asr (v : Byte) (n : Nat) : sint8 (asr v n) = sint8 v / 2 ^ n := by
  simp [sint8, asr, BitVec.toInt_sshiftRight, Int.shiftRight_eq_div_pow]

theorem asr_eq_ofInt (v : Byte) (n : Nat) : asr v n = BitVec.ofInt 8 (v.toInt / 2 ^ n) := by
  have h : (asr v n).toInt = v.toInt / 2 ^ n := sint8_asr v n
  rw [← h, BitVec.ofInt_toInt]

theorem toNat_lowBits (v : Byte) {n : Nat} (hn : n ≤ 8) : (lowBits v n).toNat = v.toNat % 2 ^ n := by
  have hpow : 2 ^ n ≤ 2 ^ 8 := Nat.pow_le_pow_right (by decide) hn
  rw [lowBits, BitVec.toNat_and, BitVec.toNat_ofNat, Nat.mod_eq_of_lt (by omega), Nat.and_two_pow_sub_one_eq_mod]

/-- R125: the remainder a read by 1, 2 or 4 leaves. -/
theorem sint8_lowBits (v : Byte) {n : Nat} (hn : n ≤ 2) : sint8 (lowBits v n) = sint8 v % 2 ^ n := by
  have hlow := toNat_lowBits v (n := n) (by omega)
  have hlt := v.isLt
  rw [sint8, sint8, BitVec.toInt_eq_toNat_cond, BitVec.toInt_eq_toNat_cond, hlow]
  interval_cases n <;> omega

/-- R125: returned units and remainder together. -/
theorem units_add_remainder (v : Byte) {n : Nat} (hn : n ≤ 2) :
    2 ^ n * sint8 (asr v n) + sint8 (lowBits v n) = sint8 v := by
  rw [sint8_asr, sint8_lowBits v hn]
  exact Int.mul_ediv_add_emod ..

end Sys2Proof.Machine
end

section
/-! PROOFS. The account of the raw counts over runs of steps (41_tick_quadrature.md R107; 42_consumer_reads.md R126;
70_reset_and_hazards.md R185). -/

namespace Sys2Proof.Machine

/-! ### One step -/

theorem nextInstr_of_nil {s : State} (hp : s.pending = []) : nextInstr s = none := by
  simp [nextInstr, hp]

theorem nextInstr_of_legal {s : State} {r : Request} {rest : List Request} {i : Instr} (hp : s.pending = r :: rest)
    (hd : decode r.word = .ok i) : nextInstr s = some i := by
  simp [nextInstr, hp, hd]

theorem nextInstr_of_illegal {s : State} {r : Request} {rest : List Request} {e : Illegal}
    (hp : s.pending = r :: rest) (hd : decode r.word = .error e) : nextInstr s = none := by
  simp [nextInstr, hp, hd]

/-- A step whose counts balance: the phase moves by the step's raw count, and the accumulator, before any reduction
modulo 2^8, gains that count and gives up what the step handed to the consumer. -/
def StepBalances (s t : State) : Prop :=
  t.encLast = s.encLast + BitVec.ofInt 2 (stepCount s) ∧
    stepRead s t + sint8 t.encDelta = (sint8 s.encDelta + stepCount s).bmod 256

/-- A step with no raw count balances when what it handed over and what it left make up the accumulator. -/
theorem stepBalances_of_no_count {s t : State} (hcount : stepCount s = 0) (hlast : t.encLast = s.encLast)
    (hdelta : stepRead s t + sint8 t.encDelta = sint8 s.encDelta) : StepBalances s t := by
  obtain ⟨hlow, hhigh⟩ := sint8_range s.encDelta
  refine ⟨?_, ?_⟩
  · rw [hcount, hlast]
    exact (BitVec.add_zero _).symm
  · rw [hcount, Int.add_zero, bmod_256_of_range hlow hhigh]
    exact hdelta

theorem stepBalances_of_no_instr {s t : State} (hnext : nextInstr s = none) (hlast : t.encLast = s.encLast)
    (hdelta : t.encDelta = s.encDelta) : StepBalances s t :=
  stepBalances_of_no_count (by simp [stepCount, hnext]) hlast (by simp [stepRead, hnext, hdelta])

/-- R125, R126: a delta read hands over its units and leaves the remainder. -/
theorem stepBalances_deltaRead {s u : State} {n : Nat} (hn : n ≤ 2) (hcount : stepCount s = 0)
    (hread : stepRead s (deltaRead n u) = 2 ^ n * sint8 (asr u.encDelta n)) (hlast : u.encLast = s.encLast)
    (hdelta : u.encDelta = s.encDelta) : StepBalances s (deltaRead n u) := by
  refine stepBalances_of_no_count hcount hlast ?_
  rw [hread, ← hdelta, deltaRead_encDelta]
  exact units_add_remainder u.encDelta hn

/-- Every instruction but RESET balances, on the state in which it was taken. -/
theorem stepBalances_effect {s u : State} {i : Instr} (hnext : nextInstr s = some i) (hlast : u.encLast = s.encLast)
    (hdelta : u.encDelta = s.encDelta) (hreset : ∀ p, i ≠ .reset p) : StepBalances s (effect i u) := by
  cases i with
  | tick pins =>
    have hcount : stepCount s = rawCount u.encLast (samplePhase pins) := by simp [stepCount, hnext, hlast]
    have hread : stepRead s (effect (.tick pins) u) = 0 := by simp [stepRead, hnext]
    refine ⟨?_, ?_⟩
    · rw [hcount, ← hlast]
      exact tickEffect_encLast_eq_add pins u
    · rw [hread, hcount, ← hdelta, ← sint8_add_ofInt, Int.zero_add]
      exact congrArg sint8 (tickEffect_encDelta_eq_add pins u)
  | getkp mask =>
    exact stepBalances_of_no_count (by simp [stepCount, hnext]) hlast (by simp [stepRead, hnext, effect, hdelta])
  | rd1 =>
    exact stepBalances_deltaRead (by decide) (by simp [stepCount, hnext]) (by simp [stepRead, hnext]) hlast hdelta
  | rd2 =>
    exact stepBalances_deltaRead (by decide) (by simp [stepCount, hnext]) (by simp [stepRead, hnext]) hlast hdelta
  | rd4 =>
    exact stepBalances_deltaRead (by decide) (by simp [stepCount, hnext]) (by simp [stepRead, hnext]) hlast hdelta
  | wake =>
    exact stepBalances_of_no_count (by simp [stepCount, hnext]) hlast (by simp [stepRead, hnext, effect, hdelta])
  | reset pins => exact absurd rfl (hreset pins)

/-- R107, R126: every step that completes and is no RESET balances. -/
theorem stepBalances_of_step {s t : State} (h : step s = .next t) (hreset : ∀ p, nextInstr s ≠ some (.reset p)) :
    StepBalances s t := by
  obtain ⟨hp, rfl⟩ | ⟨r, rest, i, hp, hd, -, rfl⟩ | ⟨r, rest, e, hp, hd, rfl⟩ := step_cases h
  · exact stepBalances_of_no_instr (nextInstr_of_nil hp) rfl rfl
  · have hnext := nextInstr_of_legal hp hd
    exact stepBalances_effect hnext rfl rfl fun p hi => hreset p (hi ▸ hnext)
  · exact stepBalances_of_no_instr (nextInstr_of_illegal hp hd) rfl rfl

/-! ### Runs -/

theorem netCount_succ {s t : State} (n : Nat) (h : step s = .next t) :
    netCount (n + 1) s = stepCount s + netCount n t := by
  simp [netCount, h]

theorem netRead_succ {s t : State} (n : Nat) (h : step s = .next t) :
    netRead (n + 1) s = stepRead s t + netRead n t := by
  simp [netRead, h]

theorem noReset_succ {s t : State} {n : Nat} (h : step s = .next t) (hreset : noReset (n + 1) s = true) :
    (∀ p, nextInstr s ≠ some (.reset p)) ∧ noReset n t = true := by
  simp only [noReset, h, Bool.and_eq_true] at hreset
  refine ⟨fun p hp => ?_, hreset.2⟩
  simp [hp] at hreset

theorem noWrap_succ {s t : State} {n : Nat} (h : step s = .next t) (hwrap : noWrap (n + 1) s = true) :
    (-128 ≤ sint8 s.encDelta + stepCount s ∧ sint8 s.encDelta + stepCount s ≤ 127) ∧ noWrap n t = true := by
  simpa only [noWrap, h, Bool.and_eq_true, decide_eq_true_eq] using hwrap

/-- Settles O26: by induction on the steps, the phase moving by each step's raw count. -/
theorem phaseTracksTheNetCount : Obligations.PhaseTracksTheNetCount := by
  unfold Obligations.PhaseTracksTheNetCount
  intro n
  induction n with
  | zero =>
    rintro s t ⟨⟩ -
    exact (BitVec.add_zero _).symm
  | succ n ih =>
    intro s t h hreset
    obtain ⟨u, hu, hrun⟩ := run_succ_cases h
    obtain ⟨hnext, hrest⟩ := noReset_succ hu hreset
    obtain ⟨hlast, -⟩ := stepBalances_of_step hu hnext
    rw [ih u t hrun hrest, hlast, netCount_succ n hu, BitVec.ofInt_add, BitVec.add_assoc]

/-- Settles O38: by induction on the steps; a step that does not wrap balances without reduction. -/
theorem readsAccountForEveryCount : Obligations.ReadsAccountForEveryCount := by
  unfold Obligations.ReadsAccountForEveryCount
  intro n
  induction n with
  | zero =>
    rintro s t ⟨⟩ - -
    simp [netCount, netRead]
  | succ n ih =>
    intro s t h hreset hwrap
    obtain ⟨u, hu, hrun⟩ := run_succ_cases h
    obtain ⟨hnext, hrest⟩ := noReset_succ hu hreset
    obtain ⟨⟨hlow, hhigh⟩, hwraps⟩ := noWrap_succ hu hwrap
    obtain ⟨-, hdelta⟩ := stepBalances_of_step hu hnext
    have haccount := ih u t hrun hrest hwraps
    rw [bmod_256_of_range hlow hhigh] at hdelta
    rw [netCount_succ n hu, netRead_succ n hu]
    omega

/-- Settles O39: by induction on the steps; a wrap changes the balance of a step by a multiple of 256. -/
theorem readsAccountForCountsModulo256 : Obligations.ReadsAccountForCountsModulo256 := by
  unfold Obligations.ReadsAccountForCountsModulo256
  intro n
  induction n with
  | zero =>
    rintro s t ⟨⟩ -
    simp [netCount, netRead]
  | succ n ih =>
    intro s t h hreset
    obtain ⟨u, hu, hrun⟩ := run_succ_cases h
    obtain ⟨hnext, hrest⟩ := noReset_succ hu hreset
    obtain ⟨-, hdelta⟩ := stepBalances_of_step hu hnext
    have haccount := ih u t hrun hrest
    have hmod : (sint8 s.encDelta + stepCount s).bmod 256 % 256 = (sint8 s.encDelta + stepCount s) % 256 :=
      Int.bmod_emod
    rw [netCount_succ n hu, netRead_succ n hu]
    omega

/-! ### Ticks alone (R185) -/

theorem stepCount_load_tick (p : Sample) (is : List Instr) (s : State) :
    stepCount (load (.tick p :: is) s) = rawCount s.encLast (samplePhase p) := by
  have hnext : nextInstr (load (.tick p :: is) s) = some (.tick p) :=
    nextInstr_of_legal (r := ownRequest (.tick p)) rfl (decode_encode _)
  simp [stepCount, hnext]

/-- Ticks fewer than the room the accumulator has on either side never wrap it. -/
theorem sint8_encDelta_ticks (ps : List Sample) (s : State) (hinit : s.init = true)
    (hlow : -128 ≤ sint8 s.encDelta - ps.length) (hhigh : sint8 s.encDelta + ps.length ≤ 127) :
    sint8 (issueAll (ps.map .tick) s).encDelta =
      sint8 s.encDelta + netCount ps.length (load (ps.map .tick) s) := by
  induction ps generalizing s with
  | nil => simp [netCount]
  | cons p ps ih =>
    obtain ⟨hdown, hup⟩ := rawCount_range s.encLast (samplePhase p)
    rw [List.length_cons] at hlow hhigh ⊢
    have htick : sint8 (issue (.tick p) s).encDelta = sint8 s.encDelta + rawCount s.encLast (samplePhase p) := by
      rw [encDelta_issue_tick, sint8_add_ofInt, bmod_256_of_range (by omega) (by omega)]
    rw [List.map_cons, issueAll_cons, netCount_succ _ (step_load _ (.inl hinit)), stepCount_load_tick,
      ih _ (issue_init _ hinit) (by omega) (by omega), htick, Int.add_assoc]

/-- Settles O40: a remainder of 0 to 3 leaves room for 124 counts either way. -/
theorem upTo124TicksNeverWrap : Obligations.UpTo124TicksNeverWrap := by
  unfold Obligations.UpTo124TicksNeverWrap
  intro s ps hinit hdelta hlen
  have hrange : 0 ≤ sint8 s.encDelta ∧ sint8 s.encDelta ≤ 3 := by
    have hnat : s.encDelta.toNat ≤ 3 := hdelta
    rw [sint8, BitVec.toInt_eq_toNat_of_lt (by omega)]
    omega
  exact ⟨_, runAll_of_init _ hinit, sint8_encDelta_ticks ps s hinit (by omega) (by omega)⟩

end Sys2Proof.Machine
end

section
/-! PROOFS. The consumer's reads (42_consumer_reads.md R120 to R125). -/

namespace Sys2Proof.Machine

/-! ### The whole result of each read -/

/-- Settles O28. -/
theorem getkpReturnsAndClearsSelectedFlags : Obligations.GetkpReturnsAndClearsSelectedFlags := by
  unfold Obligations.GetkpReturnsAndClearsSelectedFlags
  intro mask s hissuer hinit
  refine exec_eq_next.mpr ⟨⟨hissuer, .inl hinit⟩, ?_⟩
  rw [← hissuer]
  rfl

/-- A delta read of the CONSUMER as an update of two fields, `v` being the byte returned. -/
theorem deltaRead_eq {s : State} {n : Nat} {v : Byte} (hissuer : s.issuer = .consumer) (hv : asr s.encDelta n = v) :
    deltaRead n s = { s with encDelta := lowBits s.encDelta n, reply := .result .consumer v } := by
  rw [← hissuer, ← hv]
  rfl

/-- Settles O30: a shift by 0 returns the accumulator, and no bit of it is kept. -/
theorem rd1ReturnsAndZeroesTheAccumulator : Obligations.Rd1ReturnsAndZeroesTheAccumulator := by
  unfold Obligations.Rd1ReturnsAndZeroesTheAccumulator
  intro s hissuer hinit
  refine exec_eq_next.mpr ⟨⟨hissuer, .inl hinit⟩, ?_⟩
  have hall : asr s.encDelta 0 = s.encDelta := BitVec.sshiftRight_zero
  have hnone : lowBits s.encDelta 0 = 0x00#8 := BitVec.and_zero
  rw [← hnone]
  exact (deltaRead_eq hissuer hall).symm

/-- Settles O31: a shift by 1 is the floor of the half. -/
theorem rd2ReturnsHalfAndKeepsTheLowBit : Obligations.Rd2ReturnsHalfAndKeepsTheLowBit := by
  unfold Obligations.Rd2ReturnsHalfAndKeepsTheLowBit
  intro s hissuer hinit
  refine exec_eq_next.mpr ⟨⟨hissuer, .inl hinit⟩, ?_⟩
  exact (deltaRead_eq hissuer (asr_eq_ofInt s.encDelta 1)).symm

/-- Settles O32: a shift by 2 is the floor of the quarter. -/
theorem rd4ReturnsQuarterAndKeepsTwoBits : Obligations.Rd4ReturnsQuarterAndKeepsTwoBits := by
  unfold Obligations.Rd4ReturnsQuarterAndKeepsTwoBits
  intro s hissuer hinit
  refine exec_eq_next.mpr ⟨⟨hissuer, .inl hinit⟩, ?_⟩
  exact (deltaRead_eq hissuer (asr_eq_ofInt s.encDelta 2)).symm

/-- R63: bits 7:2 of a mask select no key. -/
theorem maskLanes_and_low (mask : Byte) : maskLanes (mask &&& 0x03#8) = maskLanes mask := by
  apply BitVec.eq_of_getLsbD_eq
  intro k hk
  have hlow : (0x03#8).getLsbD k = true := by interval_cases k <;> rfl
  rw [getLsbD_maskLanes _ hk, getLsbD_maskLanes _ hk, BitVec.getLsbD_and, hlow, Bool.and_true]

/-- Settles O29: GETKP reads its mask through `maskLanes` only, and returns two bits. -/
theorem getkpIgnoresHighMaskBits : Obligations.GetkpIgnoresHighMaskBits := by
  unfold Obligations.GetkpIgnoresHighMaskBits
  intro mask s t h
  obtain ⟨⟨hissuer, hinit⟩, rfl⟩ := exec_eq_next.mp h
  have heffect : getkpEffect mask s = getkpEffect (mask &&& 0x03#8) s := by
    simp only [getkpEffect, selectedFlags, clearPressFlags, maskLanes_and_low]
  refine ⟨exec_eq_next.mpr ⟨⟨hissuer, hinit⟩, heffect⟩, (selectedFlags s.keyPress mask).setWidth 8,
    congrArg (Reply.result · _) hissuer, fun k hk => ?_⟩
  rw [BitVec.getLsbD_setWidth, BitVec.getLsbD_of_ge _ _ hk, Bool.and_false]

/-- R125 for the reader with shift `n`: what a delta read answers. -/
theorem deltaRead_units_and_remainder {s : State} {n : Nat} (hn : n ≤ 2) (hissuer : s.issuer = .consumer) :
    ∃ v, (deltaRead n s).reply = .result .consumer v ∧
      2 ^ n * sint8 v + sint8 (deltaRead n s).encDelta = sint8 s.encDelta ∧
      0 ≤ sint8 (deltaRead n s).encDelta ∧ sint8 (deltaRead n s).encDelta ≤ 2 ^ n - 1 := by
  have hpos : (0 : Int) < 2 ^ n := by positivity
  refine ⟨asr s.encDelta n, congrArg (Reply.result · _) hissuer, units_add_remainder s.encDelta hn, ?_, ?_⟩
  · rw [deltaRead_encDelta, sint8_lowBits _ hn]
    exact Int.emod_nonneg _ hpos.ne'
  · rw [deltaRead_encDelta, sint8_lowBits _ hn]
    exact Int.le_sub_one_of_lt (Int.emod_lt_of_pos _ hpos)

/-- Settles O33. -/
theorem readUnitsAndRemainderEqualTheAccumulator : Obligations.ReadUnitsAndRemainderEqualTheAccumulator := by
  unfold Obligations.ReadUnitsAndRemainderEqualTheAccumulator
  intro s t x hx h
  simp only [List.mem_cons, List.not_mem_nil, or_false] at hx
  obtain ⟨⟨hissuer, -⟩, rfl⟩ := exec_eq_next.mp h
  rcases hx with rfl | rfl | rfl
  · exact deltaRead_units_and_remainder (by decide) hissuer
  · exact deltaRead_units_and_remainder (by decide) hissuer
  · exact deltaRead_units_and_remainder (by decide) hissuer

/-! ### Reading again -/

/-- R125: a remainder has no whole unit. -/
theorem asr_lowBits (v : Byte) {n : Nat} (hn : n ≤ 2) : asr (lowBits v n) n = 0x00#8 := by
  have hpos : (0 : Int) < 2 ^ n := by positivity
  have hunits : sint8 (asr (lowBits v n) n) = 0 := by
    rw [sint8_asr, sint8_lowBits v hn]
    exact Int.ediv_eq_zero_of_lt (Int.emod_nonneg _ hpos.ne') (Int.emod_lt_of_pos _ hpos)
  exact BitVec.eq_of_toInt_eq hunits

theorem selectedFlags_clearPressFlags (keyPress : Lanes) (mask : Byte) :
    selectedFlags (clearPressFlags keyPress mask) mask = 0#2 := by
  apply BitVec.eq_of_getLsbD_eq
  intro k hk
  rw [getLsbD_selectedFlags _ _ hk, getLsbD_clearPressFlags _ _ hk, Bool.and_assoc, Bool.not_and_self, Bool.and_false,
    BitVec.getLsbD_zero]

/-- Settles O34: a delta read leaves a remainder, GETKP leaves no selected flag. -/
theorem secondReadReturnsZero : Obligations.SecondReadReturnsZero := by
  unfold Obligations.SecondReadReturnsZero
  intro s hinit i hi
  refine ⟨_, runAll_of_init _ hinit, ?_⟩
  rcases hi with rfl | rfl | rfl | ⟨m, rfl⟩
  · exact congrArg (Reply.result _) (asr_lowBits s.encDelta (n := 0) (by decide))
  · exact congrArg (Reply.result _) (asr_lowBits s.encDelta (n := 1) (by decide))
  · exact congrArg (Reply.result _) (asr_lowBits s.encDelta (n := 2) (by decide))
  · have hnone := selectedFlags_clearPressFlags s.keyPress m
    exact congrArg (fun flags : Lanes => Reply.result .consumer (flags.setWidth 8)) hnone

/-! ### What the reads leave alone -/

/-- Settles O35: the frame of `deltaRead` and of `getkpEffect`, register by register. -/
theorem readFrames : Obligations.ReadFrames := by
  unfold Obligations.ReadFrames
  intro s t i hi h
  obtain ⟨-, rfl⟩ := exec_eq_next.mp h
  rcases hi with rfl | rfl | rfl | ⟨m, rfl⟩
  · exact ⟨rfl, rfl, rfl, rfl, rfl, rfl, rfl, rfl, nofun, fun _ => rfl⟩
  · exact ⟨rfl, rfl, rfl, rfl, rfl, rfl, rfl, rfl, nofun, fun _ => rfl⟩
  · exact ⟨rfl, rfl, rfl, rfl, rfl, rfl, rfl, rfl, nofun, fun _ => rfl⟩
  · exact ⟨rfl, rfl, rfl, rfl, rfl, rfl, rfl, rfl, fun _ => rfl, nofun⟩

/-! ### A press event over a run (R124) -/

/-- A flag that is clear stays so under every operation but TICK. -/
theorem keyPress_clear_issue {k : Nat} (hk : k < 2) {i : Instr} (htick : ∀ p, i ≠ .tick p) (s : State)
    (hclear : s.keyPress.getLsbD k = false) : (issue i s).keyPress.getLsbD k = false := by
  cases i with
  | tick p => exact absurd rfl (htick p)
  | getkp m =>
    refine (getLsbD_clearPressFlags s.keyPress m hk).trans ?_
    rw [hclear, Bool.false_and]
  | reset p => exact BitVec.getLsbD_zero
  | _ => exact hclear

/-- A flag that is set stays so under every operation but RESET and a GETKP that selects its key. -/
theorem keyPress_set_issue {k : Nat} (hk : k < 2) {i : Instr} (hreset : ∀ p, i ≠ .reset p)
    (hgetkp : ∀ m, i = .getkp m → m.getLsbD k = false) (s : State) (hset : s.keyPress.getLsbD k = true) :
    (issue i s).keyPress.getLsbD k = true := by
  cases i with
  | tick p =>
    refine (getLsbD_setPressFlags_flipState s.keyPress s.keyState _ k).trans ?_
    rw [hset, Bool.true_or]
  | getkp m =>
    refine (getLsbD_clearPressFlags s.keyPress m hk).trans ?_
    rw [hset, hgetkp m rfl, Bool.not_false, Bool.and_true]
  | reset p => exact absurd rfl (hreset p)
  | _ => exact hset

/-- R120 on one key: the bit GETKP returns. -/
theorem getLsbD_getkp_result (keyPress : Lanes) (mask : Byte) {k : Nat} (hk : k < 2) :
    ((selectedFlags keyPress mask).setWidth 8).getLsbD k = (keyPress.getLsbD k && mask.getLsbD k) := by
  have hk8 : k < 8 := by omega
  rw [BitVec.getLsbD_setWidth, getLsbD_selectedFlags keyPress mask hk]
  simp [hk8]

/-- Settles O36: the first GETKP clears the flag, and without a TICK nothing sets it again. -/
theorem pressEventIsNotReturnedTwice : Obligations.PressEventIsNotReturnedTwice := by
  unfold Obligations.PressEventIsNotReturnedTwice
  intro k m m' is s hk hinit hm his
  have hfirst : (issue (.getkp m) s).keyPress.getLsbD k = false := by
    refine (getLsbD_clearPressFlags s.keyPress m hk).trans ?_
    rw [hm, Bool.not_true, Bool.and_false]
  have hlast : (issueAll is (issue (.getkp m) s)).keyPress.getLsbD k = false :=
    issueAll_induction (P := fun u => u.keyPress.getLsbD k = false)
      (fun i hi u hu => keyPress_clear_issue hk (his i hi) u hu) hfirst
  refine ⟨_, (selectedFlags (issueAll is (issue (.getkp m) s)).keyPress m').setWidth 8, runAll_of_init _ hinit, ?_⟩
  rw [List.cons_append, issueAll_cons, issueAll_append]
  refine ⟨rfl, (getLsbD_getkp_result _ m' hk).trans ?_⟩
  rw [hlast, Bool.false_and]

/-- Settles O37: the flag is kept up to the GETKP that selects its key, which returns and clears it. -/
theorem pressEventIsKeptUntilRead : Obligations.PressEventIsKeptUntilRead := by
  unfold Obligations.PressEventIsKeptUntilRead
  intro k m is s hk hinit hset hm his
  have hkept : (issueAll is s).keyPress.getLsbD k = true :=
    issueAll_induction (P := fun u => u.keyPress.getLsbD k = true)
      (fun i hi u hu => keyPress_set_issue hk (his i hi).1 (his i hi).2 u hu) hset
  refine ⟨_, (selectedFlags (issueAll is s).keyPress m).setWidth 8, runAll_of_init _ hinit, ?_⟩
  rw [issueAll_append]
  refine ⟨rfl, (getLsbD_getkp_result _ m hk).trans ?_, (getLsbD_clearPressFlags _ m hk).trans ?_⟩
  · rw [hkept, hm, Bool.and_true]
  · rw [hkept, hm, Bool.not_true, Bool.and_false]

end Sys2Proof.Machine
end

section
/-! PROOFS. RESET and WAKE (43_reset_wake.md R140, R141). -/

namespace Sys2Proof.Machine

/-- Settles O41: RESET needs only its owner. -/
theorem resetResult : Obligations.ResetResult := by
  unfold Obligations.ResetResult
  intro pins s hissuer
  exact exec_eq_next.mpr ⟨⟨hissuer, .inr rfl⟩, rfl⟩

/-- Settles O42. -/
theorem wakeResult : Obligations.WakeResult := by
  unfold Obligations.WakeResult
  intro s hissuer hinit
  exact exec_eq_next.mpr ⟨⟨hissuer, .inl hinit⟩, rfl⟩

/-- Settles O43: RESET writes each of the six unspecified registers. -/
theorem launchStateIsWhatResetLeaves : Obligations.LaunchStateIsWhatResetLeaves := by
  unfold Obligations.LaunchStateIsWhatResetLeaves
  intro ks kp ct0 ct1 el ed
  rw [runAll_reset]
  rfl

/-- An operation computes the registers from the registers. -/
theorem registers_issue_congr (i : Instr) {s s' : State} (h : registers s = registers s') :
    registers (issue i s) = registers (issue i s') := by
  cases s
  cases s'
  simp only [registers, Prod.mk.injEq] at h
  obtain ⟨rfl, rfl, rfl, rfl, rfl, rfl, rfl, rfl⟩ := h
  cases i <;> rfl

theorem registers_issue_wake (s : State) : registers (issue .wake s) = registers s := rfl

theorem registers_issueAll_without_wake (is : List Instr) {s s' : State} (h : registers s = registers s') :
    registers (issueAll is s) = registers (issueAll (is.filter fun i => decide (i ≠ .wake)) s') := by
  induction is generalizing s s' with
  | nil => exact h
  | cons i is ih =>
    by_cases hi : i = .wake
    · subst hi
      exact ih ((registers_issue_wake s).trans h)
    · rw [List.filter_cons_of_pos (by simpa using hi)]
      exact ih (registers_issue_congr i h)

/-- Settles O45: by induction on the commands, of two runs whose registers are equal. -/
theorem wakeNeverMatters : Obligations.WakeNeverMatters := by
  unfold Obligations.WakeNeverMatters
  intro is s hinit
  exact ⟨_, _, runAll_of_init _ hinit, runAll_of_init _ hinit, registers_issueAll_without_wake is rfl⟩

end Sys2Proof.Machine
end

section
/-! PROOFS. The writers of each register and the returns (10_state.md R25, R29, R32). -/

namespace Sys2Proof.Machine

/-- Settles O46: the registers each effect leaves alone. -/
theorem hiddenRegistersHaveOnlyTheirWriters : Obligations.HiddenRegistersHaveOnlyTheirWriters := by
  unfold Obligations.HiddenRegistersHaveOnlyTheirWriters
  intro i s t h
  obtain ⟨-, rfl⟩ := exec_eq_next.mp h
  refine ⟨fun htick hreset => ?_, fun hreset => ?_, effect_fault i s⟩
  · cases i with
    | tick p => exact absurd rfl (htick p)
    | reset p => exact absurd rfl (hreset p)
    | _ => exact ⟨rfl, rfl, rfl⟩
  · cases i with
    | reset p => exact absurd rfl (hreset p)
    | _ => rfl

/-- R104, R106: an odd phase difference counts one, an even one nothing. -/
theorem rawCount_of_parity : ∀ last new : Phase,
    if (last.toNat + 4 - new.toNat) % 2 = 1 then rawCount last new = 1 ∨ rawCount last new = -1
    else rawCount last new = 0 := by
  decide

/-- Settles O49: TICK by the parity of its phase difference, the reads by the bits they keep. -/
theorem encDeltaCountsTransitionsAndIsConsumedByReads : Obligations.EncDeltaCountsTransitionsAndIsConsumedByReads := by
  unfold Obligations.EncDeltaCountsTransitionsAndIsConsumedByReads
  intro i s t h
  obtain ⟨-, rfl⟩ := exec_eq_next.mp h
  cases i with
  | tick p =>
    have hdelta := tickEffect_encDelta_eq_add p s
    have hparity := rawCount_of_parity s.encLast (samplePhase p)
    dsimp only
    split at hparity
    next hodd =>
      rw [if_pos hodd]
      rcases hparity with hup | hdown
      · rw [hup] at hdelta
        exact .inl hdelta
      · rw [hdown, add_ofInt_neg_one] at hdelta
        exact .inr hdelta
    next heven =>
      rw [if_neg heven]
      rw [hparity] at hdelta
      exact hdelta.trans (BitVec.add_zero _)
  | rd1 => exact BitVec.and_zero
  | rd2 => exact toNat_lowBits s.encDelta (n := 1) (by decide)
  | rd4 => exact toNat_lowBits s.encDelta (n := 2) (by decide)
  | reset p => rfl
  | getkp m => rfl
  | wake => rfl

/-- Settles O50: the reply of each effect; the issuer of an admitted read is the CONSUMER. -/
theorem resultsGoToTheConsumerOnly : Obligations.ResultsGoToTheConsumerOnly := by
  unfold Obligations.ResultsGoToTheConsumerOnly
  intro i s t h
  obtain ⟨⟨hissuer, -⟩, rfl⟩ := exec_eq_next.mp h
  cases i <;> simp [effect, hissuer, owner]

end Sys2Proof.Machine
end
